-- ==== Sys2Proof/Word.lean ====
section
/-! DEFINITION. Word.lean: the words the EB8 unit works on (spec/00_scope.md R7, R8, R11) and the plain records
carried on its ports (spec/10_state.md R25). -/

namespace Sys2Proof

/-- A 64-bit operand or result word: eight 8-bit lanes (R7, R8). -/
abbrev Word := BitVec 64

/-- One unsigned 8-bit lane (R7). -/
abbrev Byte := BitVec 8

/-- A 16-bit command word (R8, R42). -/
abbrev CmdWord := BitVec 16

/-- The exception of a response (60_exceptions.md R97). The reserved code 3 is never produced, so it is no case (log 15). -/
inductive Exc where
  | none
  | illop
  | invmask
  deriving DecidableEq, Repr

/-- The response to one command: the result R and the exception (00_scope.md R15). -/
structure Response where
  r : Word
  exc : Exc
  deriving DecidableEq, Repr

/-- A response in flight (10_state.md R27): the rising edges it still waits before the edge that presents it. -/
structure InFlight where
  wait : Nat
  rsp : Response
  deriving DecidableEq, Repr

/-- What the host drives on the unit's input ports in one cycle (10_state.md R25). `hold` is no port: it says that
the host keeps driving these values while the unit does not accept the command (70_reset_and_hazards.md R119 leaves
that to the host; DESIGN CHOICE, log 2). -/
structure Ports where
  rst : Bool
  cmdValid : Bool
  cmd : CmdWord
  opa : Word
  opb : Word
  opm : Word
  hold : Bool
  deriving DecidableEq, Repr

end Sys2Proof
end

