-- ==== Sys2Proof/Syntax.lean ====
section
/-! DEFINITION. Syntax.lean: the operations of the EB8 command set, version 1 (spec/30_encoding.md R47), one
constructor per row of spec/opcode_table.json. -/

namespace Sys2Proof

/-- An operation with its immediate. Operands are no part of it: each operation reads fixed ports (R45). An immediate
is a plain number here; `Instr.wellFormed` says that it fits IMM3 (R44; log 14). -/
inductive Instr where
  | bcast
  | extr (k : Nat)
  | add
  | sub
  | adds
  | subs
  | cmpeq
  | cmpne
  | cmplt
  | cmple
  | cmpgt
  | cmpge
  | and
  | or
  | xor
  | not
  | sel
  | mchk
  | min
  | max
  | shl (n : Nat)
  | shr (n : Nat)
  | pcnt
  | many
  | mall
  | mcount
  | hsum
  | hmin
  | hmax
  | rdstat
  | clrstat
  deriving DecidableEq, Repr

end Sys2Proof
end

