-- ==== Sys2Proof/WellFormed.lean ====
section
/-! DEFINITION. WellFormed.lean: which instruction terms a command word can encode (spec/30_encoding.md R44). -/

namespace Sys2Proof

/-- IMM3 has 3 bits: a lane index and a shift amount are in 0..7 (R44). The other operations have no operand field,
so every one of them is well formed. -/
def Instr.wellFormed : Instr → Bool
  | .extr k => decide (k < 8)
  | .shl n => decide (n < 8)
  | .shr n => decide (n < 8)
  | .bcast | .add | .sub | .adds | .subs
  | .cmpeq | .cmpne | .cmplt | .cmple | .cmpgt | .cmpge
  | .and | .or | .xor | .not | .sel | .mchk | .min | .max | .pcnt
  | .many | .mall | .mcount | .hsum | .hmin | .hmax
  | .rdstat | .clrstat => true

end Sys2Proof
end

