-- ==== Sys2Proof/Decode.lean ====
section
/-! DEFINITION. Decode.lean: the command encoding (spec/30_encoding.md R42 to R53): fields, the total decoder, the
encoder, the match/mask rows of R48 with `legal` (R50), and the assembler's notation (R52, R53). -/

namespace Sys2Proof

/-! ### Fields (R43) -/

/-- OP = cmd[5:0]. -/
def cmdOp (w : CmdWord) : BitVec 6 := w.extractLsb' 0 6

/-- RSVA = cmd[7:6], must be 0. -/
def cmdRsva (w : CmdWord) : BitVec 2 := w.extractLsb' 6 2

/-- IMM3 = cmd[10:8]. -/
def cmdImm3 (w : CmdWord) : BitVec 3 := w.extractLsb' 8 3

/-- RSVB = cmd[15:11], must be 0. -/
def cmdRsvb (w : CmdWord) : BitVec 5 := w.extractLsb' 11 5

/-- The command word with these fields: `RRRRR iii rr oooooo` (R43), both reserved fields 0. -/
def cmdPack (imm3 : BitVec 3) (op : BitVec 6) : CmdWord := (0#5 ++ imm3 ++ 0#2 ++ op : BitVec 16)

/-! ### Decoding -/

/-- Why a command word is illegal: the four bullets of R49. A word with several defects is named by the first that
`decode` looks at; the name has no effect on the unit, which raises ILLOP for each (DESIGN CHOICE, log 12). -/
inductive Illegal where
  /-- OP is absent from R47. -/
  | reservedOp
  /-- RSVA is not 0. -/
  | rsvaNonzero
  /-- RSVB is not 0. -/
  | rsvbNonzero
  /-- IMM3 is not 0 and the operation does not use it. -/
  | imm3Nonzero
  deriving DecidableEq, Repr

/-- The operation an OP value selects, given IMM3, and whether it uses IMM3 (R47); none for a reserved OP. -/
def opcodeMap (op imm3 : Nat) : Option (Instr × Bool) :=
  match op with
  | 0x01 => some (.bcast, false)
  | 0x02 => some (.extr imm3, true)
  | 0x08 => some (.add, false)
  | 0x09 => some (.sub, false)
  | 0x0A => some (.adds, false)
  | 0x0B => some (.subs, false)
  | 0x10 => some (.cmpeq, false)
  | 0x11 => some (.cmpne, false)
  | 0x12 => some (.cmplt, false)
  | 0x13 => some (.cmple, false)
  | 0x14 => some (.cmpgt, false)
  | 0x15 => some (.cmpge, false)
  | 0x18 => some (.and, false)
  | 0x19 => some (.or, false)
  | 0x1A => some (.xor, false)
  | 0x1B => some (.not, false)
  | 0x1C => some (.sel, false)
  | 0x1D => some (.mchk, false)
  | 0x20 => some (.min, false)
  | 0x21 => some (.max, false)
  | 0x24 => some (.shl imm3, true)
  | 0x25 => some (.shr imm3, true)
  | 0x26 => some (.pcnt, false)
  | 0x28 => some (.many, false)
  | 0x29 => some (.mall, false)
  | 0x2A => some (.mcount, false)
  | 0x2C => some (.hsum, false)
  | 0x2D => some (.hmin, false)
  | 0x2E => some (.hmax, false)
  | 0x3C => some (.rdstat, false)
  | 0x3D => some (.clrstat, false)
  | _ => none

/-- The total decoder (R50): one instruction, or the reason the word is illegal (R49). -/
def decode (w : CmdWord) : Except Illegal Instr :=
  match opcodeMap (cmdOp w).toNat (cmdImm3 w).toNat with
  | none => .error .reservedOp
  | some (i, usesImm3) =>
    if cmdRsva w ≠ 0 then .error .rsvaNonzero
    else if cmdRsvb w ≠ 0 then .error .rsvbNonzero
    else if usesImm3 = false ∧ cmdImm3 w ≠ 0 then .error .imm3Nonzero
    else .ok i

/-! ### Encoding -/

/-- The OP value of an operation (R47). -/
def opcode : Instr → BitVec 6
  | .bcast => 0x01
  | .extr _ => 0x02
  | .add => 0x08
  | .sub => 0x09
  | .adds => 0x0A
  | .subs => 0x0B
  | .cmpeq => 0x10
  | .cmpne => 0x11
  | .cmplt => 0x12
  | .cmple => 0x13
  | .cmpgt => 0x14
  | .cmpge => 0x15
  | .and => 0x18
  | .or => 0x19
  | .xor => 0x1A
  | .not => 0x1B
  | .sel => 0x1C
  | .mchk => 0x1D
  | .min => 0x20
  | .max => 0x21
  | .shl _ => 0x24
  | .shr _ => 0x25
  | .pcnt => 0x26
  | .many => 0x28
  | .mall => 0x29
  | .mcount => 0x2A
  | .hsum => 0x2C
  | .hmin => 0x2D
  | .hmax => 0x2E
  | .rdstat => 0x3C
  | .clrstat => 0x3D

/-- The value of IMM3: the lane index or the shift amount, 0 for every other operation (R43, R44). -/
def immediate : Instr → Nat
  | .extr k => k
  | .shl n => n
  | .shr n => n
  | .bcast | .add | .sub | .adds | .subs
  | .cmpeq | .cmpne | .cmplt | .cmple | .cmpgt | .cmpge
  | .and | .or | .xor | .not | .sel | .mchk | .min | .max | .pcnt
  | .many | .mall | .mcount | .hsum | .hmin | .hmax
  | .rdstat | .clrstat => 0

/-- The command word of an instruction (R43, R48). -/
def encode (i : Instr) : CmdWord := cmdPack (BitVec.ofNat 3 (immediate i)) (opcode i)

/-! ### Match and mask (R48) -/

/-- The row (match, mask) of each operation, in the order of R47, as R48 and spec/opcode_table.json give it. -/
def matchRows : List (CmdWord × CmdWord) :=
  [ (0x0001, 0xFFFF), (0x0002, 0xF8FF), (0x0008, 0xFFFF), (0x0009, 0xFFFF),
    (0x000A, 0xFFFF), (0x000B, 0xFFFF), (0x0010, 0xFFFF), (0x0011, 0xFFFF),
    (0x0012, 0xFFFF), (0x0013, 0xFFFF), (0x0014, 0xFFFF), (0x0015, 0xFFFF) ] ++
  [ (0x0018, 0xFFFF), (0x0019, 0xFFFF), (0x001A, 0xFFFF), (0x001B, 0xFFFF),
    (0x001C, 0xFFFF), (0x001D, 0xFFFF), (0x0020, 0xFFFF), (0x0021, 0xFFFF),
    (0x0024, 0xF8FF), (0x0025, 0xF8FF), (0x0026, 0xFFFF) ] ++
  [ (0x0028, 0xFFFF), (0x0029, 0xFFFF), (0x002A, 0xFFFF), (0x002C, 0xFFFF),
    (0x002D, 0xFFFF), (0x002E, 0xFFFF), (0x003C, 0xFFFF), (0x003D, 0xFFFF) ]

/-- `legal(cmd)`: some row's pattern fits (R48, R50). It is written from the rows, apart from `decode`, so that the
two can be compared. -/
def legal (w : CmdWord) : Bool := matchRows.any fun row => w &&& row.2 == row.1

/-! ### Assembler notation (R52, R53) -/

/-- The mnemonic of an operation (R47). -/
def mnemonic : Instr → String
  | .bcast => "BCAST"
  | .extr _ => "EXTR"
  | .add => "ADD"
  | .sub => "SUB"
  | .adds => "ADDS"
  | .subs => "SUBS"
  | .cmpeq => "CMPEQ"
  | .cmpne => "CMPNE"
  | .cmplt => "CMPLT"
  | .cmple => "CMPLE"
  | .cmpgt => "CMPGT"
  | .cmpge => "CMPGE"
  | .and => "AND"
  | .or => "OR"
  | .xor => "XOR"
  | .not => "NOT"
  | .sel => "SEL"
  | .mchk => "MCHK"
  | .min => "MIN"
  | .max => "MAX"
  | .shl _ => "SHL"
  | .shr _ => "SHR"
  | .pcnt => "PCNT"
  | .many => "MANY"
  | .mall => "MALL"
  | .mcount => "MCOUNT"
  | .hsum => "HSUM"
  | .hmin => "HMIN"
  | .hmax => "HMAX"
  | .rdstat => "RDSTAT"
  | .clrstat => "CLRSTAT"

/-- Whether an operation uses IMM3 (R47). -/
def usesImm3 : Instr → Bool
  | .extr _ | .shl _ | .shr _ => true
  | .bcast | .add | .sub | .adds | .subs
  | .cmpeq | .cmpne | .cmplt | .cmple | .cmpgt | .cmpge
  | .and | .or | .xor | .not | .sel | .mchk | .min | .max | .pcnt
  | .many | .mall | .mcount | .hsum | .hmin | .hmax
  | .rdstat | .clrstat => false

/-- A command as the assembler writes it: the mnemonic, then for EXTR, SHL and SHR the decimal immediate (R52). -/
def assembly (i : Instr) : String :=
  if usesImm3 i then mnemonic i ++ " " ++ toString (immediate i) else mnemonic i

/-- The pseudo-instructions of R53. -/
inductive Pseudo where
  | mand
  | mor
  | mxor
  | mnot
  | blend
  deriving DecidableEq, Repr

/-- The one command a pseudo-instruction assembles to, with the same operands on the same ports (R53). -/
def expand : Pseudo → Instr
  | .mand => .and
  | .mor => .or
  | .mxor => .xor
  | .mnot => .not
  | .blend => .sel

/-- A pseudo-instruction's name (R53). -/
def pseudoMnemonic : Pseudo → String
  | .mand => "MAND"
  | .mor => "MOR"
  | .mxor => "MXOR"
  | .mnot => "MNOT"
  | .blend => "BLEND"

/-! ### The host's numbering of instruction bits -/

/-- The command word whose bits are `w`, of which the table gives `nbits`: a command is one 16-bit word (R42), so the
bits above `nbits` are 0 and there is no byte order to choose (log 13). -/
def tableWord (nbits w : Nat) : CmdWord := BitVec.ofNat 16 (w % 2 ^ nbits)

/-- The instruction the decoder reads from that word; none where it is illegal. -/
def decodeTableWord (nbits w : Nat) : Option Instr :=
  match decode (tableWord nbits w) with
  | .ok i => some i
  | .error _ => none

end Sys2Proof
end

