-- ==== Sys2Proof/Config.lean ====
section
/-! DEFINITION. Config.lean: the open parameters of spec/00_scope.md R9 and the values the spec leaves unspecified.
Every one is an opaque constant: nothing can evaluate it, so a claim about the model holds for every value.
A function of a draw number stands for a stream of independent draws; the number comes from `State.draws`. -/

namespace Sys2Proof.Config

/-- LATENCY - 1, where LATENCY is an integer >= 1 (R9, 70_reset_and_hazards.md R118). Log 3. -/
opaque latencyLessOne : Nat

/-- LATENCY: cycles from a command's acceptance to its response (R9, R118). -/
def latency : Nat := latencyLessOne + 1

/-- READY_POLICY: how many cycles `cmd_ready` stays 0 before the next cycle in which it is 1 (R9, R119). Each number
is finite, which is R119's fairness. Log 4. -/
opaque readyStall : Nat → Nat

/-- INVMASK_RESULT: R of the response to a command that raises INVMASK (R9, 60_exceptions.md R101). Log 5. -/
opaque invmaskResult : Nat → Word

/-- `rsp_r` while `rsp_valid` = 0 (10_state.md R26). Log 6. -/
opaque idleR : Nat → Word

/-- `rsp_exc` while `rsp_valid` = 0 (10_state.md R26). Log 6. -/
opaque idleExc : Nat → BitVec 2

/-- STATUS before the first reset (70_reset_and_hazards.md R112). Log 8. -/
opaque powerOnStatus : Nat → Byte

/-- The in-flight state before the first reset (R112). Log 8. -/
opaque powerOnInFlight : Nat → List InFlight

/-- `rsp_valid` before the first reset (R112). Log 8. -/
opaque powerOnRspValid : Nat → Bool

/-- `rsp_r` before the first reset (R112). Log 8. -/
opaque powerOnRspR : Nat → Word

/-- `rsp_exc` before the first reset (R112). Log 8. -/
opaque powerOnRspExc : Nat → BitVec 2

/-- What decides `cmd_ready` before the first reset (R112): it is 1 exactly when this is 0. Log 8. -/
opaque powerOnStall : Nat → Nat

end Sys2Proof.Config
end

