-- ==== Sys2Proof/Machine/State.lean ====
section
/-! DEFINITION. Machine/State.lean: the state of the EB8 unit (spec/10_state.md R17, R24, R25, R27, R29), as plain
data, with the state after reset and the state at power-on. One state is the moment just before a rising edge of `clk`. -/

namespace Sys2Proof.Machine

/-- The reasons the machine stops with a fault: none. Both exceptions of the spec are reported in a response and the
unit goes on (60_exceptions.md R104), so no meaning raises a fault. Safe: there is nothing to hide behind one. Log 17. -/
inductive Fault
  deriving DecidableEq, Repr

/-- The reasons a step is refused. -/
inductive Refusal where
  /-- Raised by an arm of `exec` whose instruction has no meaning yet, with its mnemonic; no arm does. Safe. -/
  | notModelled (mnemonic : String)
  deriving DecidableEq, Repr

/-- The state just before a rising edge of `clk`. INVENTORY.md lists each field with its rule. -/
structure State where
  /-- STATUS (R24): bit 0 ILLOP, bit 1 INVMASK; bits 7:2 are hardwired 0, see `State.readStatus`. -/
  status : Byte
  /-- The responses in flight, oldest first (R27). -/
  inFlight : List InFlight
  /-- `rsp_valid` in this cycle (R25, R26). -/
  rspValid : Bool
  /-- `rsp_r` in this cycle. -/
  rspR : Word
  /-- `rsp_exc` in this cycle. -/
  rspExc : BitVec 2
  /-- The cycles, this one included, for which READY_POLICY still holds `cmd_ready` at 0 (R119). -/
  stall : Nat
  /-- Whether a reset edge has happened since power-on (R112, R114). -/
  resetDone : Bool
  /-- What the host drives on the input ports in this cycle (R25). -/
  ports : Ports
  /-- What the host drives in the cycles that follow, next first; idle after that (the model's own, log 2). -/
  hostQueue : List Ports
  /-- The number of the next free draw (the model's own, log 7). -/
  draws : Nat
  deriving DecidableEq, Repr

/-- A host that presents no command and leaves `rst` at 0. -/
def idlePorts : Ports :=
  { rst := false, cmdValid := false, cmd := 0, opa := 0, opb := 0, opm := 0, hold := false }

/-- The state after a reset edge with `rst` released and the host idle (R29, R111): STATUS 0, nothing in flight,
`rsp_valid` 0. What R29 leaves unspecified or to READY_POLICY is free (log 10). -/
def State.reset : State :=
  { status := 0
    inFlight := []
    rspValid := false
    rspR := Config.idleR 0
    rspExc := Config.idleExc 0
    stall := Config.readyStall 0
    resetDone := true
    ports := idlePorts
    hostQueue := []
    draws := 1 }

/-- The state at power-on, before any reset, with what the host drives: everything of the unit is unspecified (R112),
except that STATUS bits 7:2 are hardwired 0 (R24). -/
def State.powerOn (ports : Ports) (queue : List Ports) : State :=
  { status := Config.powerOnStatus 0 &&& 0x03
    inFlight := Config.powerOnInFlight 0
    rspValid := Config.powerOnRspValid 0
    rspR := Config.powerOnRspR 0
    rspExc := Config.powerOnRspExc 0
    stall := Config.powerOnStall 0
    resetDone := false
    ports := ports
    hostQueue := queue
    draws := 1 }

end Sys2Proof.Machine
end

