-- ==== Sys2Proof/Machine/Flags.lean ====
section
/-! DEFINITION. Machine/Flags.lean: EXC codes and the STATUS register. The unit has no condition codes and no
arithmetic flags (spec/10_state.md R20); STATUS (R24) is its only status register, and all reads and writes of it
go through this file. -/

namespace Sys2Proof.Machine

/-- The EXC code reported on `rsp_exc` (60_exceptions.md R97). -/
def excCode : Exc → BitVec 2
  | .none => 0
  | .illop => 1
  | .invmask => 2

/-- The exception an EXC code stands for; code 3 is reserved and stands for none (R97). -/
def excOfCode (c : BitVec 2) : Option Exc :=
  match c.toNat with
  | 0 => some .none
  | 1 => some .illop
  | 2 => some .invmask
  | _ => none

/-- The implemented bits of STATUS; bits 7:2 are hardwired 0 (R24). -/
def statusMask : Byte := 0x03

/-- STATUS[0], the sticky ILLOP bit (R24). -/
def illopBit : Byte := 0x01

/-- STATUS[1], the sticky INVMASK bit (R24). -/
def invmaskBit : Byte := 0x02

/-- STATUS as it reads: bits 7:2 read as 0 (R24; log 9). -/
def State.readStatus (s : State) : Byte := s.status &&& statusMask

/-- Write STATUS: bits 7:2 discard what is written (R24; log 9). -/
def State.writeStatus (s : State) (v : Byte) : State := { s with status := v &&& statusMask }

/-- Set a sticky bit and keep the other (60_exceptions.md R102). -/
def State.setSticky (s : State) (bit : Byte) : State := s.writeStatus (s.readStatus ||| bit)

end Sys2Proof.Machine
end

