-- ==== Sys2Proof/Machine/Operands.lean ====
section
/-! DEFINITION. Machine/Operands.lean: lanes and masks (spec/00_scope.md R11, R12; 10_state.md R21, R22), byte
sequences (20_memory.md R32), and which ports an operation reads (30_encoding.md R45, R47). -/

namespace Sys2Proof.Machine

/-! ### Lanes -/

/-- `lane(w, i) = w[8i+7 : 8i]` (R11). -/
def lane (w : Word) (i : Nat) : Byte := w.extractLsb' (8 * i) 8

/-- `pack(v0, ..., v7)`: the word whose lane i is `v i` (R11); also the word of a byte sequence (R32). -/
def pack (v : Fin 8 → Byte) : Word := (v 7 ++ v 6 ++ v 5 ++ v 4 ++ v 3 ++ v 2 ++ v 1 ++ v 0 : BitVec 64)

/-- The byte sequence of a word: element i is lane i (R32). -/
def unpack (w : Word) : Fin 8 → Byte := fun i => lane w i.val

/-- `for i in 0..7: lane(R, i) <- f(i)` (R12). -/
def lanewise (f : Nat → Byte) : Word := pack fun i => f i.val

/-- `BYTES8(x)` (R11). -/
def bytes8 (x : Byte) : Word := lanewise fun _ => x

/-- The values of the eight lanes as integers, lane 0 first. -/
def laneValues (w : Word) : List Nat := (List.range 8).map fun i => (lane w i).toNat

/-- The number of one bits of a lane value (R12 `popcount`). -/
def popcount (x : Byte) : Nat := ((List.range 8).filter fun j => x.getLsbD j).length

/-! ### Masks -/

/-- `mask(c)`: 0xFF when c holds and 0x00 otherwise (R12). -/
def maskByte (c : Bool) : Byte := if c then 0xFF else 0x00

/-- Whether lane i of a mask is true (R22). -/
def laneTrue (m : Word) (i : Nat) : Bool := lane m i == 0xFF

/-- `valid_mask(m)`: every lane is 0x00 or 0xFF (R22). -/
def validMask (m : Word) : Bool := (List.range 8).all fun i => lane m i == 0x00 || lane m i == 0xFF

/-- The number of true lanes. -/
def trueLanes (m : Word) : Nat := ((List.range 8).filter fun i => laneTrue m i).length

/-! ### The ports an operation reads (R47) -/

/-- Whether the operation reads port A. -/
def readsA : Instr → Bool
  | .bcast | .extr _ | .add | .sub | .adds | .subs
  | .cmpeq | .cmpne | .cmplt | .cmple | .cmpgt | .cmpge
  | .and | .or | .xor | .not | .sel | .min | .max
  | .shl _ | .shr _ | .pcnt | .hsum | .hmin | .hmax => true
  | .mchk | .many | .mall | .mcount | .rdstat | .clrstat => false

/-- Whether the operation reads port B. -/
def readsB : Instr → Bool
  | .add | .sub | .adds | .subs
  | .cmpeq | .cmpne | .cmplt | .cmple | .cmpgt | .cmpge
  | .and | .or | .xor | .sel | .min | .max => true
  | .bcast | .extr _ | .not | .mchk | .shl _ | .shr _ | .pcnt
  | .many | .mall | .mcount | .hsum | .hmin | .hmax
  | .rdstat | .clrstat => false

/-- Whether the operation reads port M, always as a checked mask (R45; 60_exceptions.md R99). -/
def readsM : Instr → Bool
  | .sel | .mchk | .many | .mall | .mcount => true
  | .bcast | .extr _ | .add | .sub | .adds | .subs
  | .cmpeq | .cmpne | .cmplt | .cmple | .cmpgt | .cmpge
  | .and | .or | .xor | .not | .min | .max
  | .shl _ | .shr _ | .pcnt | .hsum | .hmin | .hmax
  | .rdstat | .clrstat => false

/-- Whether the operation produces a mask for every input (10_state.md R23, the K rows of R47). -/
def producesMask : Instr → Bool
  | .cmpeq | .cmpne | .cmplt | .cmple | .cmpgt | .cmpge | .mchk => true
  | .bcast | .extr _ | .add | .sub | .adds | .subs
  | .and | .or | .xor | .not | .sel | .min | .max
  | .shl _ | .shr _ | .pcnt | .many | .mall | .mcount | .hsum | .hmin | .hmax
  | .rdstat | .clrstat => false

end Sys2Proof.Machine
end

