-- ==== Sys2Proof/Machine/Ops.lean ====
section
/-! DEFINITION. Machine/Ops.lean: the shared operations: answering a command (spec/30_encoding.md R51), raising an
exception (60_exceptions.md R98, R100), and what a rising edge of `clk` does around a command (10_state.md R25 to R27;
70_reset_and_hazards.md R111, R112, R118, R119). There is no return from an exception (R105). -/

namespace Sys2Proof.Machine

/-- What the meaning of an instruction answers. -/
abbrev Result := Host.Outcome State Fault Refusal

/-! ### Answering a command -/

/-- The accepted command's one response joins those in flight, behind every earlier one (R26, R27; logs 3 and 11). -/
def State.respond (s : State) (r : Word) (e : Exc) : State :=
  { s with inFlight := s.inFlight ++ [{ wait := Config.latencyLessOne, rsp := { r := r, exc := e } }] }

/-- `R <- r; EXC <- 0`: the command completes (R51). -/
def State.complete (s : State) (r : Word) : Result := .next (s.respond r .none)

/-- `raise ILLOP()`: `R <- 0; EXC <- 1; STATUS[0] <- 1`, nothing else (R98). -/
def State.raiseIllop (s : State) : State := (s.setSticky illopBit).respond 0 .illop

/-- `raise INVMASK()`: `EXC <- 2; STATUS[1] <- 1`; R is a fresh draw (R100, R101; log 5). -/
def State.raiseInvmask (s : State) : State :=
  { (s.setSticky invmaskBit).respond (Config.invmaskResult s.draws) .invmask with draws := s.draws + 1 }

/-- A command that reads M checks it before computing anything (R99); `f` computes R from a valid M. -/
def State.withMask (s : State) (f : Word → Word) : Result :=
  if validMask s.ports.opm then s.complete (f s.ports.opm) else .next s.raiseInvmask

/-! ### The command port -/

/-- `cmd_ready` (R25): 0 while `rst` = 1 (R111), otherwise per READY_POLICY (R119). -/
def State.cmdReady (s : State) : Bool := !s.ports.rst && s.stall == 0

/-- A command is accepted at this edge: `cmd_valid`, `cmd_ready` and not `rst` (R25). -/
def State.accepts (s : State) : Bool := s.ports.cmdValid && s.cmdReady && !s.ports.rst

/-- The host goes on to what it drives in the next cycle; with nothing left to drive it is idle (log 2). -/
def State.advanceHost (s : State) : State :=
  { s with ports := s.hostQueue.headD idlePorts, hostQueue := s.hostQueue.tail }

/-- How long `cmd_ready` stays 0 next: after a cycle with 1, READY_POLICY chooses; a cycle with 0 counts down (R119). -/
def nextStall (stall draw : Nat) : Nat :=
  match stall with
  | 0 => Config.readyStall draw
  | n + 1 => n

/-! ### The response port -/

/-- One edge passes for a response in flight. -/
def ageInFlight (p : InFlight) : InFlight := { p with wait := p.wait - 1 }

/-- The response this edge presents: the oldest in flight, if its wait is over (R26, R118). -/
def dueResponse : List InFlight → Option Response
  | [] => none
  | p :: _ => if p.wait = 0 then some p.rsp else none

/-- The responses still in flight after this edge: the one it presents is gone, the others wait one edge less
(R118; log 18). -/
def stillInFlight : List InFlight → List InFlight
  | [] => []
  | p :: rest => if p.wait = 0 then rest.map ageInFlight else (p :: rest).map ageInFlight

/-- `rsp_r` with this response, or with none (`rsp_valid` = 0: it means nothing, R26; log 6). -/
def portR (p : Option Response) (draw : Nat) : Word :=
  match p with
  | some x => x.r
  | none => Config.idleR draw

/-- `rsp_exc` with this response, or with none (R26; log 6). -/
def portExc (p : Option Response) (draw : Nat) : BitVec 2 :=
  match p with
  | some x => excCode x.exc
  | none => Config.idleExc draw

/-! ### Edges -/

/-- The unit's own part of an edge without reset: the response due is presented, for this one cycle (R26), `cmd_ready`
is chosen (R119), and the free draws of the edge are used up (log 7). -/
def State.clock (s : State) : State :=
  { s with
    inFlight := stillInFlight s.inFlight
    rspValid := (dueResponse s.inFlight).isSome
    rspR := portR (dueResponse s.inFlight) s.draws
    rspExc := portExc (dueResponse s.inFlight) s.draws
    stall := nextStall s.stall s.draws
    draws := s.draws + 1 }

/-- The edge that accepted a command: the host goes on. -/
def State.acceptEdge (s : State) : State := s.clock.advanceHost

/-- An edge that accepts no command: a host that holds its command keeps driving it, any other goes on (R119; log 2). -/
def State.waitEdge (s : State) : State :=
  if s.ports.cmdValid && s.ports.hold then s.clock else s.clock.advanceHost

/-- An edge with `rst` = 1 (R111): STATUS <- 0x00, in-flight responses discarded, `rsp_valid` <- 0, no command
accepted. -/
def State.resetEdge (s : State) : State :=
  ({ s.writeStatus 0x00 with
      inFlight := []
      rspValid := false
      rspR := Config.idleR s.draws
      rspExc := Config.idleExc s.draws
      stall := Config.readyStall s.draws
      resetDone := true
      draws := s.draws + 1 } : State).advanceHost

/-- An edge with `rst` = 0 before the first reset: no rule holds yet (R114) and every part of the unit is unspecified
(R112), so all of it is drawn again (log 8). -/
def State.unresetEdge (s : State) : State :=
  ({ s.writeStatus (Config.powerOnStatus s.draws) with
      inFlight := Config.powerOnInFlight s.draws
      rspValid := Config.powerOnRspValid s.draws
      rspR := Config.powerOnRspR s.draws
      rspExc := Config.powerOnRspExc s.draws
      stall := Config.powerOnStall s.draws
      draws := s.draws + 1 } : State).advanceHost

/-- The rest of the accepting edge, after the command had its effect. -/
def afterCommand : Result → Result
  | .next t => .next t.acceptEdge
  | .fault f => .fault f
  | .refused r => .refused r

/-! ### Placing a command on the port -/

/-- The host presents this command word now and `cmd_ready` is 1, after a reset: what an edge takes to accept it. The
operand ports keep what they hold (log 13). -/
def State.driveCommand (s : State) (w : CmdWord) : State :=
  { s with
    stall := 0
    resetDone := true
    ports := { s.ports with rst := false, cmdValid := true, cmd := w } }

end Sys2Proof.Machine
end

