-- ==== Sys2Proof/Machine/AddSub.lean ====
section
/-! DEFINITION. Machine/AddSub.lean: lane-wise add and subtract (spec/41_add_sub.md). Lanes are taken as integers, the
exact result is computed, and it is narrowed at the end (00_scope.md R13, R56). -/

namespace Sys2Proof.Machine

/-- A lane-wise operation of two words given by an exact integer result per lane, stored modulo 256 (R13). -/
def lanewiseInt (f : Int → Int → Int) (a b : Word) : Word :=
  lanewise fun i => BitVec.ofInt 8 (f (lane a i).toNat (lane b i).toNat)

/-- `(lane(A, i) + lane(B, i)) mod 256` (R58). -/
def addWord (a b : Word) : Word := lanewiseInt (fun x y => (x + y) % 256) a b

/-- `(lane(A, i) - lane(B, i)) mod 256`, on integers (R59). -/
def subWord (a b : Word) : Word := lanewiseInt (fun x y => (x - y) % 256) a b

/-- `min(lane(A, i) + lane(B, i), 255)` (R60). -/
def addsWord (a b : Word) : Word := lanewiseInt (fun x y => min (x + y) 255) a b

/-- `max(lane(A, i) - lane(B, i), 0)`, on integers (R61). -/
def subsWord (a b : Word) : Word := lanewiseInt (fun x y => max (x - y) 0) a b

/-- ADD (R58). -/
def execAdd (s : State) : Result := s.complete (addWord s.ports.opa s.ports.opb)

/-- SUB (R59). -/
def execSub (s : State) : Result := s.complete (subWord s.ports.opa s.ports.opb)

/-- ADDS (R60). -/
def execAdds (s : State) : Result := s.complete (addsWord s.ports.opa s.ports.opb)

/-- SUBS (R61). -/
def execSubs (s : State) : Result := s.complete (subsWord s.ports.opa s.ports.opb)

end Sys2Proof.Machine
end

