-- ==== Sys2Proof/Machine/Compare.lean ====
section
/-! DEFINITION. Machine/Compare.lean: lane-wise unsigned comparisons, each giving a mask (spec/42_compare.md R65). -/

namespace Sys2Proof.Machine

/-- Lane i is 0xFF when the relation holds between the unsigned lanes i and 0x00 otherwise (R65). -/
def compareWord (rel : Nat → Nat → Bool) (a b : Word) : Word :=
  lanewise fun i => maskByte (rel (lane a i).toNat (lane b i).toNat)

/-- R66. -/
def cmpeqWord (a b : Word) : Word := compareWord (fun x y => decide (x = y)) a b

/-- R67. -/
def cmpneWord (a b : Word) : Word := compareWord (fun x y => decide (x ≠ y)) a b

/-- R68. -/
def cmpltWord (a b : Word) : Word := compareWord (fun x y => decide (x < y)) a b

/-- R69. -/
def cmpleWord (a b : Word) : Word := compareWord (fun x y => decide (x ≤ y)) a b

/-- R70. -/
def cmpgtWord (a b : Word) : Word := compareWord (fun x y => decide (x > y)) a b

/-- R71. -/
def cmpgeWord (a b : Word) : Word := compareWord (fun x y => decide (x ≥ y)) a b

/-- CMPEQ (R66). -/
def execCmpeq (s : State) : Result := s.complete (cmpeqWord s.ports.opa s.ports.opb)

/-- CMPNE (R67). -/
def execCmpne (s : State) : Result := s.complete (cmpneWord s.ports.opa s.ports.opb)

/-- CMPLT (R68). -/
def execCmplt (s : State) : Result := s.complete (cmpltWord s.ports.opa s.ports.opb)

/-- CMPLE (R69). -/
def execCmple (s : State) : Result := s.complete (cmpleWord s.ports.opa s.ports.opb)

/-- CMPGT (R70). -/
def execCmpgt (s : State) : Result := s.complete (cmpgtWord s.ports.opa s.ports.opb)

/-- CMPGE (R71). -/
def execCmpge (s : State) : Result := s.complete (cmpgeWord s.ports.opa s.ports.opb)

end Sys2Proof.Machine
end

