-- ==== Sys2Proof/Machine/Lane.lean ====
section
/-! DEFINITION. Machine/Lane.lean: lane access (spec/40_lane_access.md). -/

namespace Sys2Proof.Machine

/-- `x <- A[7:0]; lane(R, i) <- x` (R54). -/
def bcastWord (a : Word) : Word := lanewise fun _ => a.extractLsb' 0 8

/-- `R <- zext_64(lane(A, k))` (R55). -/
def extrWord (k : Nat) (a : Word) : Word := (lane a k).setWidth 64

/-- BCAST (R54). -/
def execBcast (s : State) : Result := s.complete (bcastWord s.ports.opa)

/-- EXTR k (R55). -/
def execExtr (k : Nat) (s : State) : Result := s.complete (extrWord k s.ports.opa)

end Sys2Proof.Machine
end

