-- ==== Sys2Proof/Machine/Logic.lean ====
section
/-! DEFINITION. Machine/Logic.lean: bitwise logic, select and mask check (spec/43_logic_select.md). -/

namespace Sys2Proof.Machine

/-- `R <- (A & M) | (B & ~M)` (R78). -/
def selWord (m a b : Word) : Word := (a &&& m) ||| (b &&& ~~~m)

/-- AND (R74). -/
def execAnd (s : State) : Result := s.complete (s.ports.opa &&& s.ports.opb)

/-- OR (R75). -/
def execOr (s : State) : Result := s.complete (s.ports.opa ||| s.ports.opb)

/-- XOR (R76). -/
def execXor (s : State) : Result := s.complete (s.ports.opa ^^^ s.ports.opb)

/-- NOT (R77). -/
def execNot (s : State) : Result := s.complete (~~~s.ports.opa)

/-- SEL (R78). -/
def execSel (s : State) : Result := s.withMask fun m => selWord m s.ports.opa s.ports.opb

/-- MCHK (R79). -/
def execMchk (s : State) : Result := s.withMask fun m => m

end Sys2Proof.Machine
end

