-- ==== Sys2Proof/Machine/MinMax.lean ====
section
/-! DEFINITION. Machine/MinMax.lean: lane-wise unsigned minimum and maximum (spec/44_minmax.md). -/

namespace Sys2Proof.Machine

/-- `min(lane(A, i), lane(B, i))` (R80). -/
def minWord (a b : Word) : Word := lanewise fun i => BitVec.ofNat 8 (min (lane a i).toNat (lane b i).toNat)

/-- `max(lane(A, i), lane(B, i))` (R81). -/
def maxWord (a b : Word) : Word := lanewise fun i => BitVec.ofNat 8 (max (lane a i).toNat (lane b i).toNat)

/-- MIN (R80). -/
def execMin (s : State) : Result := s.complete (minWord s.ports.opa s.ports.opb)

/-- MAX (R81). -/
def execMax (s : State) : Result := s.complete (maxWord s.ports.opa s.ports.opb)

end Sys2Proof.Machine
end

