-- ==== Sys2Proof/Machine/Reduce.lean ====
section
/-! DEFINITION. Machine/Reduce.lean: mask and horizontal reductions (spec/46_reductions.md). R is the scalar,
zero-extended to 64 bits. -/

namespace Sys2Proof.Machine

/-- `1 if exists i in 0..7 with lane(M, i) = 0xFF else 0` (R87). -/
def manyWord (m : Word) : Word := if (List.range 8).any (laneTrue m) then 1 else 0

/-- `1 if lane(M, i) = 0xFF for every i in 0..7 else 0` (R88). -/
def mallWord (m : Word) : Word := if (List.range 8).all (laneTrue m) then 1 else 0

/-- `number of i in 0..7 with lane(M, i) = 0xFF` (R89). -/
def mcountWord (m : Word) : Word := BitVec.ofNat 64 (trueLanes m)

/-- `lane(A, 0) + ... + lane(A, 7)`, the exact sum (R90). -/
def hsumWord (a : Word) : Word := BitVec.ofNat 64 (laneValues a).sum

/-- `min(lane(A, 0), ..., lane(A, 7))` (R91). -/
def hminWord (a : Word) : Word := BitVec.ofNat 64 ((laneValues a).foldl min (lane a 0).toNat)

/-- `max(lane(A, 0), ..., lane(A, 7))` (R92). -/
def hmaxWord (a : Word) : Word := BitVec.ofNat 64 ((laneValues a).foldl max (lane a 0).toNat)

/-- MANY (R87). -/
def execMany (s : State) : Result := s.withMask manyWord

/-- MALL (R88). -/
def execMall (s : State) : Result := s.withMask mallWord

/-- MCOUNT (R89). -/
def execMcount (s : State) : Result := s.withMask mcountWord

/-- HSUM (R90). -/
def execHsum (s : State) : Result := s.complete (hsumWord s.ports.opa)

/-- HMIN (R91). -/
def execHmin (s : State) : Result := s.complete (hminWord s.ports.opa)

/-- HMAX (R92). -/
def execHmax (s : State) : Result := s.complete (hmaxWord s.ports.opa)

end Sys2Proof.Machine
end

