-- ==== Sys2Proof/Machine/Shift.lean ====
section
/-! DEFINITION. Machine/Shift.lean: lane-wise logical shifts and population count (spec/45_shift_count.md). -/

namespace Sys2Proof.Machine

/-- `(lane(A, i) << s) mod 256` (R83). -/
def shlWord (n : Nat) (a : Word) : Word := lanewise fun i => BitVec.ofNat 8 ((lane a i).toNat * 2 ^ n % 256)

/-- `lane(A, i) >> s` (R84). -/
def shrWord (n : Nat) (a : Word) : Word := lanewise fun i => BitVec.ofNat 8 ((lane a i).toNat / 2 ^ n)

/-- `popcount(lane(A, i))` (R85). -/
def pcntWord (a : Word) : Word := lanewise fun i => BitVec.ofNat 8 (popcount (lane a i))

/-- SHL s (R83). -/
def execShl (n : Nat) (s : State) : Result := s.complete (shlWord n s.ports.opa)

/-- SHR s (R84). -/
def execShr (n : Nat) (s : State) : Result := s.complete (shrWord n s.ports.opa)

/-- PCNT (R85). -/
def execPcnt (s : State) : Result := s.complete (pcntWord s.ports.opa)

end Sys2Proof.Machine
end

