-- ==== Sys2Proof/Machine/Status.lean ====
section
/-! DEFINITION. Machine/Status.lean: the status commands (spec/47_status.md). -/

namespace Sys2Proof.Machine

/-- `zext_64(STATUS)` (R94, R95). -/
def statusWord (s : State) : Word := s.readStatus.setWidth 64

/-- RDSTAT (R94). -/
def execRdstat (s : State) : Result := s.complete (statusWord s)

/-- CLRSTAT: `R <- zext_64(STATUS); STATUS <- 0x00`, as one step (R95). -/
def execClrstat (s : State) : Result := (s.writeStatus 0x00).complete (statusWord s)

end Sys2Proof.Machine
end

