-- ==== Sys2Proof/Machine/Dispatch.lean ====
section
/-! DEFINITION. Machine/Dispatch.lean: one arm per constructor of Instr, each one call of its meaning. -/

namespace Sys2Proof.Machine

-- The effect of a legal command on the state, at its accepting edge (spec/30_encoding.md R51).
def exec (i : Instr) (s : State) : Host.Outcome State Fault Refusal :=
  match i with
  | .bcast => Sys2Proof.Machine.execBcast s
  | .extr k => Sys2Proof.Machine.execExtr k s
  | .add => Sys2Proof.Machine.execAdd s
  | .sub => Sys2Proof.Machine.execSub s
  | .adds => Sys2Proof.Machine.execAdds s
  | .subs => Sys2Proof.Machine.execSubs s
  | .cmpeq => Sys2Proof.Machine.execCmpeq s
  | .cmpne => Sys2Proof.Machine.execCmpne s
  | .cmplt => Sys2Proof.Machine.execCmplt s
  | .cmple => Sys2Proof.Machine.execCmple s
  | .cmpgt => Sys2Proof.Machine.execCmpgt s
  | .cmpge => Sys2Proof.Machine.execCmpge s
  | .and => Sys2Proof.Machine.execAnd s
  | .or => Sys2Proof.Machine.execOr s
  | .xor => Sys2Proof.Machine.execXor s
  | .not => Sys2Proof.Machine.execNot s
  | .sel => Sys2Proof.Machine.execSel s
  | .mchk => Sys2Proof.Machine.execMchk s
  | .min => Sys2Proof.Machine.execMin s
  | .max => Sys2Proof.Machine.execMax s
  | .shl n => Sys2Proof.Machine.execShl n s
  | .shr n => Sys2Proof.Machine.execShr n s
  | .pcnt => Sys2Proof.Machine.execPcnt s
  | .many => Sys2Proof.Machine.execMany s
  | .mall => Sys2Proof.Machine.execMall s
  | .mcount => Sys2Proof.Machine.execMcount s
  | .hsum => Sys2Proof.Machine.execHsum s
  | .hmin => Sys2Proof.Machine.execHmin s
  | .hmax => Sys2Proof.Machine.execHmax s
  | .rdstat => Sys2Proof.Machine.execRdstat s
  | .clrstat => Sys2Proof.Machine.execClrstat s

end Sys2Proof.Machine
end

