-- ==== Sys2Proof/Machine/Step.lean ====
section
/-! DEFINITION. Machine/Step.lean: one step is one rising edge of `clk` (spec/10_state.md R25). -/

namespace Sys2Proof.Machine

/-- The edge that accepts the command on the ports (30_encoding.md R51): an illegal word raises ILLOP, before anything
else is looked at; a legal one has its operation's effect. Then the edge goes on. -/
def State.commandEdge (s : State) : Host.Outcome State Fault Refusal :=
  match decode s.ports.cmd with
  | .ok i => afterCommand (exec i s)
  | .error _ => afterCommand (.next s.raiseIllop)

/-- One rising edge of `clk`: reset (R111); before the first reset, anything (R112); a command accepted (R25, R51); or
no command accepted. -/
def step (s : State) : Host.Outcome State Fault Refusal :=
  if s.ports.rst then .next s.resetEdge
  else if !s.resetDone then .next s.unresetEdge
  else if s.accepts then s.commandEdge
  else .next s.waitEdge

/-- The unit fetches nothing (R19, R41): the host puts the command word on the `cmd` port, presented in a cycle in which
the unit takes it. -/
def State.withFetchWord (s : State) (nbits w : Nat) : State := s.driveCommand (tableWord nbits w)

end Sys2Proof.Machine
end

