-- ==== Sys2Proof/Machine/Reference.lean ====
section
/-! DEFINITION. Machine/Reference.lean: the unit as one function of STATUS, command and operands (spec/10_state.md R28,
30_encoding.md R51), and the spec's informative reference formulas (R62, R63, R64, R73, R86, R93). No meaning uses this
file: claims compare it with the meanings. -/

namespace Sys2Proof.Machine.Reference

/-! ### The transaction-level function -/

/-- R of a command that completes, from STATUS, A, B and M (R47, R54 to R95). -/
def resultWord (i : Instr) (status : Byte) (a b m : Word) : Word :=
  match i with
  | .bcast => bcastWord a
  | .extr k => extrWord k a
  | .add => addWord a b
  | .sub => subWord a b
  | .adds => addsWord a b
  | .subs => subsWord a b
  | .cmpeq => cmpeqWord a b
  | .cmpne => cmpneWord a b
  | .cmplt => cmpltWord a b
  | .cmple => cmpleWord a b
  | .cmpgt => cmpgtWord a b
  | .cmpge => cmpgeWord a b
  | .and => a &&& b
  | .or => a ||| b
  | .xor => a ^^^ b
  | .not => ~~~a
  | .sel => selWord m a b
  | .mchk => m
  | .min => minWord a b
  | .max => maxWord a b
  | .shl n => shlWord n a
  | .shr n => shrWord n a
  | .pcnt => pcntWord a
  | .many => manyWord m
  | .mall => mallWord m
  | .mcount => mcountWord m
  | .hsum => hsumWord a
  | .hmin => hminWord a
  | .hmax => hmaxWord a
  | .rdstat => status.setWidth 64
  | .clrstat => status.setWidth 64

/-- What a command gives: its response, and STATUS after it. -/
structure Transaction where
  rsp : Response
  status : Byte
  deriving DecidableEq, Repr

/-- `exec(STATUS, cmd, A, B, M) -> (R, EXC, STATUS')` (R28, R51). `inv` is the draw for R of an INVMASK response
(R101). -/
def transact (status : Byte) (cmd : CmdWord) (a b m inv : Word) : Transaction :=
  match decode cmd with
  | .error _ => { rsp := { r := 0, exc := .illop }, status := status ||| illopBit }
  | .ok i =>
    if readsM i && !validMask m then
      { rsp := { r := inv, exc := .invmask }, status := status ||| invmaskBit }
    else
      { rsp := { r := resultWord i status a b m, exc := .none }
        status := if i = .clrstat then 0x00 else status }

/-! ### Reference formulas -/

/-- The top bit of every lane. -/
def topBits : Word := 0x8080808080808080

/-- The low seven bits of every lane. -/
def lowBits : Word := 0x7F7F7F7F7F7F7F7F

/-- ADD (R62). -/
def addRef (a b : Word) : Word := ((a &&& lowBits) + (b &&& lowBits)) ^^^ ((a ^^^ b) &&& topBits)

/-- SUB (R63). -/
def subRef (a b : Word) : Word := ((a ||| topBits) - (b &&& lowBits)) ^^^ ((a ^^^ ~~~b) &&& topBits)

/-- ADDS from ADD and CMPLT (R64). -/
def addsRef (a b : Word) : Word := addWord a b ||| cmpltWord (addWord a b) a

/-- SUBS from SUB and CMPLT (R64). -/
def subsRef (a b : Word) : Word := subWord a b &&& ~~~cmpltWord a b

/-- The non-zero test of R73: bit 7 of lane i is set exactly when lane i of x is not 0. -/
def nonzeroBits (x : Word) : Word := ((x &&& lowBits) + lowBits) ||| x

/-- CMPEQ (R73). -/
def cmpeqRef (a b : Word) : Word := ((~~~nonzeroBits (a ^^^ b) &&& topBits) >>> 7) * 0xFF

/-- The borrow out of each lane of A - B, in its bit 7 (R73). -/
def borrowBits (a b : Word) : Word := ((~~~a &&& b) ||| ((~~~a ||| b) &&& subWord a b)) &&& topBits

/-- CMPLT (R73). -/
def cmpltRef (a b : Word) : Word := (borrowBits a b >>> 7) * 0xFF

/-- SHL (R86). -/
def shlRef (n : Nat) (a : Word) : Word := (a <<< n) &&& bytes8 (BitVec.ofNat 8 ((0xFF * 2 ^ n) % 256))

/-- SHR (R86). -/
def shrRef (n : Nat) (a : Word) : Word := (a >>> n) &&& bytes8 (BitVec.ofNat 8 (0xFF / 2 ^ n))

/-- PCNT, first step (R86): counts in bit pairs. -/
def pcntPairs (a : Word) : Word := a - ((a >>> 1) &&& 0x5555555555555555)

/-- PCNT, second step (R86): counts in nibbles. -/
def pcntNibbles (x : Word) : Word := (x &&& 0x3333333333333333) + ((x >>> 2) &&& 0x3333333333333333)

/-- PCNT (R86). -/
def pcntRef (a : Word) : Word :=
  (pcntNibbles (pcntPairs a) + (pcntNibbles (pcntPairs a) >>> 4)) &&& 0x0F0F0F0F0F0F0F0F

/-- HSUM, first step (R93): sums of lane pairs. -/
def hsumPairs (a : Word) : Word := (a &&& 0x00FF00FF00FF00FF) + ((a >>> 8) &&& 0x00FF00FF00FF00FF)

/-- HSUM, second step (R93): sums of four lanes. -/
def hsumQuads (x : Word) : Word := (x &&& 0x0000FFFF0000FFFF) + ((x >>> 16) &&& 0x0000FFFF0000FFFF)

/-- HSUM (R93). -/
def hsumRef (a : Word) : Word := (hsumQuads (hsumPairs a) &&& 0xFFFFFFFF) + (hsumQuads (hsumPairs a) >>> 32)

/-- One step of the HMIN tree (R93). -/
def minFold (n : Nat) (a : Word) : Word := minWord a (a >>> n)

/-- HMIN as a tree of three MIN steps, then EXTR 0 (R93). -/
def hminRef (a : Word) : Word := extrWord 0 (minFold 8 (minFold 16 (minFold 32 a)))

/-- One step of the HMAX tree (R93). -/
def maxFold (n : Nat) (a : Word) : Word := maxWord a (a >>> n)

/-- HMAX as a tree of three MAX steps, then EXTR 0 (R93). -/
def hmaxRef (a : Word) : Word := extrWord 0 (maxFold 8 (maxFold 16 (maxFold 32 a)))

end Sys2Proof.Machine.Reference
end

