-- ==== Sys2Proof/Safety.lean ====
section
/-! DEFINITION. Safety.lean: what the host sees of the unit, what a good state is, and runs, in the terms the claims use. -/

namespace Sys2Proof.Machine

/-! ### What the host sees -/

/-- A response as the port carries it. -/
def onPort (p : Response) : Word × BitVec 2 := (p.r, excCode p.exc)

/-- The response presented in this cycle, if any (10_state.md R26). -/
def State.presented (s : State) : List (Word × BitVec 2) :=
  match s.rspValid with
  | true => [(s.rspR, s.rspExc)]
  | false => []

/-- The responses still in flight, oldest first. -/
def State.outstanding (s : State) : List (Word × BitVec 2) := s.inFlight.map fun p => onPort p.rsp

/-- How a host program takes a response: R where EXC = 0, otherwise a fault outcome (60_exceptions.md R101). -/
def hostReads (p : Response) : Except Exc Word :=
  match p.exc with
  | .none => .ok p.r
  | .illop => .error .illop
  | .invmask => .error .invmask

/-- Nothing has gone wrong that the host has not cleared: no sticky bit, and no response in flight with EXC != 0. -/
def State.clean (s : State) : Bool := s.readStatus == 0 && s.inFlight.all fun p => p.rsp.exc == .none

/-- The operations whose lane i of R is computed from the lanes i of A and B alone (00_scope.md R12, 41_add_sub.md R57). -/
def isLanewise : Instr → Bool
  | .add | .sub | .adds | .subs
  | .cmpeq | .cmpne | .cmplt | .cmple | .cmpgt | .cmpge
  | .and | .or | .xor | .not | .min | .max
  | .shl _ | .shr _ | .pcnt => true
  | .bcast | .extr _ | .sel | .mchk | .many | .mall | .mcount
  | .hsum | .hmin | .hmax | .rdstat | .clrstat => false

/-- What only the host's driving of the operand ports changes. -/
def State.withOperands (s : State) (a b m : Word) : State :=
  { s with ports := { s.ports with opa := a, opb := b, opm := m } }

/-! ### Good states -/

/-- In flight are responses whose waits rise from oldest to newest and end before the next acceptance would put one
with wait LATENCY - 1 behind them (70_reset_and_hazards.md R118). -/
def pipelineOk (l : List InFlight) : Prop :=
  l.Pairwise (fun p q => p.wait < q.wait) ∧ ∀ p ∈ l, p.wait < Config.latencyLessOne

/-- The invariant of the unit: STATUS bits 7:2 are 0 (10_state.md R24) and, once a reset has happened, the responses in
flight are spaced as LATENCY says and a presented response has a code other than 3 (60_exceptions.md R97). -/
def State.Inv (s : State) : Prop :=
  s.status &&& 0xFC = 0 ∧
  (s.resetDone = true → pipelineOk s.inFlight ∧ (s.rspValid = true → s.rspExc ≠ 3))

/-- The host leaves `rst` at 0, now and in all it will drive. -/
def State.noReset (s : State) : Prop := s.ports.rst = false ∧ ∀ p ∈ s.hostQueue, p.rst = false

/-! ### Runs -/

/-- `n` edges, as long as each answers a next state. -/
def stepN : Nat → State → Option State
  | 0, s => some s
  | n + 1, s =>
    match step s with
    | .next t => stepN n t
    | .fault _ => none
    | .refused _ => none

/-- A command as the unit sampled it (10_state.md R25), with the draw that stands for its INVMASK result. -/
structure Accepted where
  cmd : CmdWord
  a : Word
  b : Word
  m : Word
  inv : Word
  deriving DecidableEq, Repr

/-- The command this edge accepts, if any. -/
def State.taken (s : State) : List Accepted :=
  if s.accepts then
    [{ cmd := s.ports.cmd, a := s.ports.opa, b := s.ports.opb, m := s.ports.opm, inv := Config.invmaskResult s.draws }]
  else []

/-- The commands accepted in `n` edges, in order. -/
def commandsIn : Nat → State → List Accepted
  | 0, _ => []
  | n + 1, s =>
    match step s with
    | .next t => s.taken ++ commandsIn n t
    | .fault _ => []
    | .refused _ => []

/-- The responses presented after each of `n` edges, in order. -/
def responsesIn : Nat → State → List (Word × BitVec 2)
  | 0, _ => []
  | n + 1, s =>
    match step s with
    | .next t => t.presented ++ responsesIn n t
    | .fault _ => []
    | .refused _ => []

/-- The transaction-level unit on one command (10_state.md R28). -/
def transactOne (status : Byte) (c : Accepted) : Reference.Transaction :=
  Reference.transact status c.cmd c.a c.b c.m c.inv

/-- The responses of the transaction-level unit to a sequence of commands, one at a time (R28, R39). -/
def transactResponses : Byte → List Accepted → List (Word × BitVec 2)
  | _, [] => []
  | st, c :: cs => onPort (transactOne st c).rsp :: transactResponses (transactOne st c).status cs

/-- STATUS of the transaction-level unit after a sequence of commands. -/
def transactStatus : Byte → List Accepted → Byte
  | st, [] => st
  | st, c :: cs => transactStatus (transactOne st c).status cs

/-! ### What one instruction does -/

/-- The instruction completes with result `r`: its response, with EXC = 0, joins those in flight, and everything else
in the state is unchanged (30_encoding.md R51). -/
def completesWith (i : Instr) (s : State) (r : Word) : Prop :=
  exec i s = .next { s with
    inFlight := s.inFlight ++ [{ wait := Config.latencyLessOne, rsp := { r := r, exc := .none } }] }

/-- The instruction raises INVMASK: STATUS[1] is set, a response with EXC = 2 and some R joins those in flight, one
free draw is used, and everything else in the state is unchanged (60_exceptions.md R100). -/
def raisesInvmask (i : Instr) (s : State) : Prop :=
  ∃ r, exec i s = .next { s with
    status := s.readStatus ||| 0x02
    inFlight := s.inFlight ++ [{ wait := Config.latencyLessOne, rsp := { r := r, exc := .invmask } }]
    draws := s.draws + 1 }

end Sys2Proof.Machine
end

