-- ==== Sys2Proof/Certificates/Slice0/Obligations.lean ====
section
/-! DEFINITION. Certificates/Slice0/Obligations.lean: the statements about the model, for the provers. -/

open Sys2Proof Sys2Proof.Machine Sys2Proof.Machine.Reference

/-! ### Reset and power-on -/

/-- R29: the values after reset. `rsp_r`, `rsp_exc` and READY_POLICY's choice are left open by the rule and not stated. -/
def Obligations.ResetValues : Prop :=
  State.reset.readStatus = 0x00 ∧ State.reset.inFlight = [] ∧ State.reset.rspValid = false ∧
  ∀ s : State, s.ports.rst = true → s.cmdReady = false

/-- R111: what every rising edge with `rst` = 1 does, from every state (the power-on states of R112 included): the one
edge is enough. -/
def Obligations.ResetEdgeClearsUnit : Prop :=
  ∀ s : State, s.ports.rst = true →
    s.cmdReady = false ∧ s.accepts = false ∧
    ∃ t, step s = .next t ∧ t.readStatus = 0x00 ∧ t.inFlight = [] ∧ t.rspValid = false

/-- From R112 and R114 (log 8): the rules hold from the first edge with `rst` = 1 on, and never cease to. -/
def Obligations.OnlyResetStartsUnit : Prop :=
  ∀ s t : State, step s = .next t → (t.resetDone = true ↔ s.resetDone = true ∨ s.ports.rst = true)

/-- The model's choice (log 2): what the host drives in the next cycle. -/
def Obligations.HostDrivesNextOrHolds : Prop :=
  ∀ s t : State, step s = .next t →
    (s.ports.rst = false → s.resetDone = true → s.accepts = false → s.ports.cmdValid = true → s.ports.hold = true →
      t.ports = s.ports ∧ t.hostQueue = s.hostQueue) ∧
    (s.ports.rst = true ∨ s.resetDone = false ∨ s.accepts = true ∨ s.ports.cmdValid = false ∨ s.ports.hold = false →
      t.ports = s.hostQueue.headD idlePorts ∧ t.hostQueue = s.hostQueue.tail)

/-- From R96 and R104: neither exception stops the unit; every state has a next one. -/
def Obligations.StepAlwaysAnswersNext : Prop :=
  ∀ s : State, ∃ t, step s = .next t

/-! ### The step -/

/-- From R25 and R51: an accepted legal command has the effect of its instruction, and the edge goes on around it (a
response may be presented). The model's choices, not the spec's: the host then drives the first entry of `hostQueue`, or
nothing if it is empty (log 2), and a step keeps the flag `resetDone` (log 8). -/
def Obligations.StepRunsDecodedInstruction : Prop :=
  ∀ (s : State) (i : Instr), s.ports.rst = false → s.resetDone = true → s.accepts = true →
    decode s.ports.cmd = .ok i →
    step s = afterCommand (exec i s) ∧
    ∀ t, exec i s = .next t →
      ∃ u, step s = .next u ∧ u.status = t.status ∧ u.resetDone = t.resetDone ∧
        u.ports = t.hostQueue.headD idlePorts ∧ u.hostQueue = t.hostQueue.tail ∧
        u.presented ++ u.outstanding = t.outstanding

/-- R98 (and R103's ILLOP first): an accepted word that is not legal gives R = 0, EXC = 1 and STATUS[0], whatever the operand ports hold,
and no INVMASK: STATUS is otherwise as before. -/
def Obligations.IllegalWordRaisesIllop : Prop :=
  ∀ (s : State) (a b m : Word), s.ports.rst = false → s.resetDone = true → s.accepts = true →
    legal s.ports.cmd = false →
    ∃ u, step s = .next u ∧ step (s.withOperands a b m) = .next u ∧
      u.readStatus = s.readStatus ||| 0x01 ∧
      u.presented ++ u.outstanding = s.outstanding ++ [(0, 1)]

/-- From R28, R51 and R115: an edge without reset does to STATUS and to the responses exactly what the transaction-level
function does for the command it accepts, and nothing where it accepts none. -/
def Obligations.StepRefinesTransaction : Prop :=
  ∀ s : State, s.resetDone = true → s.ports.rst = false →
    ∃ u, step s = .next u ∧ u.resetDone = true ∧
      u.readStatus = transactStatus s.readStatus s.taken ∧
      u.presented ++ u.outstanding = s.outstanding ++ transactResponses s.readStatus s.taken

/-- From R28 (a derived rule of the spec) and R39: over any number of edges without reset, the responses are those of the transaction-level unit to the
accepted commands, one at a time in acceptance order, each exactly once. -/
def Obligations.RunRefinesTransactions : Prop :=
  ∀ (n : Nat) (s : State), s.resetDone = true → s.noReset →
    ∃ u, stepN n s = some u ∧
      u.readStatus = transactStatus s.readStatus (commandsIn n s) ∧
      responsesIn n s ++ u.outstanding = s.outstanding ++ transactResponses s.readStatus (commandsIn n s)

/-- From R118: the response of a command accepted at this edge is presented after LATENCY edges, this one included. -/
def Obligations.ResponseAfterLatency : Prop :=
  ∀ s : State, s.Inv → s.resetDone = true → s.noReset → s.accepts = true →
    ∃ u, stepN Config.latency s = some u ∧ u.presented = transactResponses s.readStatus s.taken

/-- From R26 and R27: at most LATENCY responses are in flight, the one being presented included. -/
def Obligations.AtMostLatencyResponses : Prop :=
  ∀ s : State, s.Inv → s.resetDone = true → (s.presented ++ s.outstanding).length ≤ Config.latency

/-- From R119: with `rst` left at 0, `cmd_ready` becomes 1; the number of edges is READY_POLICY's choice (log 4). -/
def Obligations.ReadyReturns : Prop :=
  ∀ s : State, s.resetDone = true → s.noReset → ∃ t, stepN s.stall s = some t ∧ t.cmdReady = true

/-- From R119 and log 2: a command that the host holds is accepted, unchanged, and STATUS is as it was until then. -/
def Obligations.HeldCommandIsAccepted : Prop :=
  ∀ s : State, s.resetDone = true → s.noReset → s.ports.cmdValid = true → s.ports.hold = true →
    ∃ t, stepN s.stall s = some t ∧ t.accepts = true ∧ t.ports = s.ports ∧ t.hostQueue = s.hostQueue ∧
      t.readStatus = s.readStatus

/-! ### Invariant -/

/-- The reset state and every power-on state meet the invariant. -/
def Obligations.ResetAndPowerOnMeetInv : Prop :=
  State.reset.Inv ∧ ∀ (p : Ports) (q : List Ports), (State.powerOn p q).Inv

/-- Every step keeps the invariant: STATUS bits 7:2 are 0 (R24), the pipeline is spaced as LATENCY says (R118), no
presented response has the reserved code 3 (R97). -/
def Obligations.StepKeepsInv : Prop :=
  ∀ s t : State, s.Inv → step s = .next t → t.Inv

/-! ### Encoding -/

/-- Decoding the word of a well-formed instruction gives it back; its fields are where R43 puts them. -/
def Obligations.DecodeEncode : Prop :=
  ∀ i : Instr, i.wellFormed = true →
    decode (encode i) = .ok i ∧ (cmdOp (encode i)) = opcode i ∧ (cmdImm3 (encode i)).toNat = immediate i ∧
    cmdRsva (encode i) = 0 ∧ cmdRsvb (encode i) = 0

/-- Each word that decodes is the word of the instruction it decodes to, which is well formed: one meaning a word,
one word a meaning. -/
def Obligations.EncodeDecode : Prop :=
  ∀ (w : CmdWord) (i : Instr), decode w = .ok i → encode i = w ∧ i.wellFormed = true

/-- From R50 (a derived rule of the spec): the decoder accepts exactly the words that some match/mask row of R48 fits. -/
def Obligations.LegalIffDecodes : Prop :=
  ∀ w : CmdWord, legal w = true ↔ ∃ i, decode w = .ok i

/-- From R49: exactly 52 of the 65536 words are legal. -/
def Obligations.FiftyTwoLegalWords : Prop :=
  ∃ l : List CmdWord, l.length = 52 ∧ l.Nodup ∧ ∀ w, w ∈ l ↔ legal w = true

/-- From R48 and R49: example words, and an illegal word of each kind; the refusals' names are the model's (log 12). -/
def Obligations.ExampleWordsDecode : Prop :=
  decode 0b0000000000001000 = .ok .add ∧ decode 0b0000001100000010 = .ok (.extr 3) ∧
  decode 0b0000011100100100 = .ok (.shl 7) ∧ decode 0b0000000000111100 = .ok .rdstat ∧
  decode 0x0000 = .error .reservedOp ∧ decode 0x0048 = .error .rsvaNonzero ∧
  decode 0x0808 = .error .rsvbNonzero ∧ decode 0x0108 = .error .imm3Nonzero

/-! ### Lane access -/

/-- R54. -/
def Obligations.BroadcastFillsLanes : Prop :=
  encode .bcast = 0x0001 ∧
  ∀ s : State, ∃ r, completesWith .bcast s r ∧
    (∀ i < 8, lane r i = s.ports.opa.extractLsb' 0 8) ∧
    r = (s.ports.opa.extractLsb' 0 8).setWidth 64 * 0x0101010101010101

/-- R55. -/
def Obligations.ExtractReadsLane : Prop :=
  ∀ k < 8, encode (.extr k) = 0x0002 ||| (BitVec.ofNat 16 k <<< 8) ∧
  ∀ s : State, ∃ r, completesWith (.extr k) s r ∧
    lane r 0 = lane s.ports.opa k ∧ r.extractLsb' 8 56 = 0

/-! ### Add and subtract -/

/-- R58. -/
def Obligations.AddWrapsPerLane : Prop :=
  encode .add = 0x0008 ∧
  ∀ s : State, ∃ r, completesWith .add s r ∧
    ∀ i < 8, (lane r i).toNat = ((lane s.ports.opa i).toNat + (lane s.ports.opb i).toNat) % 256

/-- R59. -/
def Obligations.SubWrapsPerLane : Prop :=
  encode .sub = 0x0009 ∧
  ∀ s : State, ∃ r, completesWith .sub s r ∧
    ∀ i < 8, ((lane r i).toNat : Int) = ((lane s.ports.opa i).toNat - (lane s.ports.opb i).toNat : Int) % 256

/-- R60. -/
def Obligations.AddsSaturatesPerLane : Prop :=
  encode .adds = 0x000A ∧
  ∀ s : State, ∃ r, completesWith .adds s r ∧
    ∀ i < 8, (lane r i).toNat = min ((lane s.ports.opa i).toNat + (lane s.ports.opb i).toNat) 255

/-- R61. -/
def Obligations.SubsFloorsPerLane : Prop :=
  encode .subs = 0x000B ∧
  ∀ s : State, ∃ r, completesWith .subs s r ∧
    ∀ i < 8, ((lane r i).toNat : Int) = max ((lane s.ports.opa i).toNat - (lane s.ports.opb i).toNat : Int) 0

/-- R57: lane j of R depends on the lanes j of A and B only, for every lane-wise operation. -/
def Obligations.LanesAreIsolated : Prop :=
  ∀ (i : Instr) (s s' : State), isLanewise i = true →
    ∃ r r', completesWith i s r ∧ completesWith i s' r' ∧
      ∀ j < 8, lane s.ports.opa j = lane s'.ports.opa j → lane s.ports.opb j = lane s'.ports.opb j →
        lane r j = lane r' j

/-- From R62: "ADD can be built as" this formula (a derived, informative rule of the spec). -/
def Obligations.AddIsMaskedAdd : Prop :=
  ∀ s : State, completesWith .add s (addRef s.ports.opa s.ports.opb)

/-- From R63: "SUB can be built as" this formula (a derived, informative rule of the spec). -/
def Obligations.SubIsMaskedSub : Prop :=
  ∀ s : State, completesWith .sub s (subRef s.ports.opa s.ports.opb)

/-- From R64 (a derived, informative rule of the spec), with its last sentence: for a valid mask K, `S | K` and `D & ~K` are selects. -/
def Obligations.SaturationByCompare : Prop :=
  (∀ s : State, completesWith .adds s (addsRef s.ports.opa s.ports.opb) ∧
    completesWith .subs s (subsRef s.ports.opa s.ports.opb)) ∧
  ∀ k x : Word, validMask k = true →
    (x ||| k) = selWord k (bytes8 0xFF) x ∧ (x &&& ~~~k) = selWord k 0 x

/-! ### Comparisons -/

/-- R66, R67. -/
def Obligations.CompareForEquality : Prop :=
  encode .cmpeq = 0x0010 ∧ encode .cmpne = 0x0011 ∧
  ∀ s : State, ∃ eq ne, completesWith .cmpeq s eq ∧ completesWith .cmpne s ne ∧
    ∀ i < 8,
      lane eq i = (if lane s.ports.opa i = lane s.ports.opb i then 0xFF else 0x00) ∧
      lane ne i = (if lane s.ports.opa i ≠ lane s.ports.opb i then 0xFF else 0x00)

/-- R68 to R71: unsigned. -/
def Obligations.CompareForOrder : Prop :=
  encode .cmplt = 0x0012 ∧ encode .cmple = 0x0013 ∧ encode .cmpgt = 0x0014 ∧ encode .cmpge = 0x0015 ∧
  ∀ s : State, ∃ lt le gt ge, completesWith .cmplt s lt ∧ completesWith .cmple s le ∧
    completesWith .cmpgt s gt ∧ completesWith .cmpge s ge ∧
    ∀ i < 8,
      lane lt i = (if (lane s.ports.opa i).toNat < (lane s.ports.opb i).toNat then 0xFF else 0x00) ∧
      lane le i = (if (lane s.ports.opa i).toNat ≤ (lane s.ports.opb i).toNat then 0xFF else 0x00) ∧
      lane gt i = (if (lane s.ports.opa i).toNat > (lane s.ports.opb i).toNat then 0xFF else 0x00) ∧
      lane ge i = (if (lane s.ports.opa i).toNat ≥ (lane s.ports.opb i).toNat then 0xFF else 0x00)

/-- From R72 (a derived rule of the spec): the identities, as whole words. -/
def Obligations.CompareIdentities : Prop :=
  ∀ s : State, ∃ eq lt, completesWith .cmpeq s eq ∧ completesWith .cmplt s lt ∧
    completesWith .cmpne s (~~~eq) ∧ completesWith .cmple s (lt ||| eq) ∧
    completesWith .cmpge s (~~~lt) ∧ completesWith .cmpgt s (~~~(lt ||| eq))

/-- From R73 (a derived, informative rule of the spec). -/
def Obligations.CompareReference : Prop :=
  ∀ s : State, completesWith .cmpeq s (cmpeqRef s.ports.opa s.ports.opb) ∧
    completesWith .cmplt s (cmpltRef s.ports.opa s.ports.opb)

/-- From R23: the comparisons, and MCHK where it completes, give valid masks, and the bitwise operations keep them. -/
def Obligations.MaskProducersGiveMasks : Prop :=
  (∀ (i : Instr) (s : State), producesMask i = true → (readsM i = true → validMask s.ports.opm = true) →
    ∃ r, completesWith i s r ∧ validMask r = true) ∧
  ∀ s : State, validMask s.ports.opa = true → validMask s.ports.opb = true →
    ∃ x y z n, completesWith .and s x ∧ completesWith .or s y ∧ completesWith .xor s z ∧ completesWith .not s n ∧
      validMask x = true ∧ validMask y = true ∧ validMask z = true ∧ validMask n = true

/-! ### Logic, select, mask check -/

/-- R74 to R77, with what they do to valid masks and lanes. -/
def Obligations.BitwiseLogic : Prop :=
  encode .and = 0x0018 ∧ encode .or = 0x0019 ∧ encode .xor = 0x001A ∧ encode .not = 0x001B ∧
  ∀ s : State,
    completesWith .and s (s.ports.opa &&& s.ports.opb) ∧
    completesWith .or s (s.ports.opa ||| s.ports.opb) ∧
    completesWith .xor s (s.ports.opa ^^^ s.ports.opb) ∧
    completesWith .not s (~~~s.ports.opa) ∧
    (∀ i < 8, (lane (~~~s.ports.opa) i).toNat = 255 - (lane s.ports.opa i).toNat) ∧
    (validMask s.ports.opa = true → validMask s.ports.opb = true → ∀ i < 8,
      (laneTrue (s.ports.opa &&& s.ports.opb) i = (laneTrue s.ports.opa i && laneTrue s.ports.opb i)) ∧
      (laneTrue (s.ports.opa ||| s.ports.opb) i = (laneTrue s.ports.opa i || laneTrue s.ports.opb i)) ∧
      (laneTrue (s.ports.opa ^^^ s.ports.opb) i = (laneTrue s.ports.opa i ^^ laneTrue s.ports.opb i)) ∧
      (laneTrue (~~~s.ports.opa) i = !laneTrue s.ports.opa i))

/-- R78. -/
def Obligations.SelectByMask : Prop :=
  encode .sel = 0x001C ∧
  ∀ s : State,
    (validMask s.ports.opm = true → ∃ r, completesWith .sel s r ∧
      r = (s.ports.opa &&& s.ports.opm) ||| (s.ports.opb &&& ~~~s.ports.opm) ∧
      ∀ i < 8, lane r i = (if lane s.ports.opm i = 0xFF then lane s.ports.opa i else lane s.ports.opb i)) ∧
    (validMask s.ports.opm = false → raisesInvmask .sel s)

/-- R79. -/
def Obligations.MaskCheckReturnsMask : Prop :=
  encode .mchk = 0x001D ∧
  ∀ s : State,
    (validMask s.ports.opm = true → completesWith .mchk s s.ports.opm) ∧
    (validMask s.ports.opm = false → raisesInvmask .mchk s)

/-! ### Min and max -/

/-- R80, R81. -/
def Obligations.MinMaxPerLane : Prop :=
  encode .min = 0x0020 ∧ encode .max = 0x0021 ∧
  ∀ s : State, ∃ mn mx, completesWith .min s mn ∧ completesWith .max s mx ∧
    ∀ i < 8,
      (lane mn i).toNat = min (lane s.ports.opa i).toNat (lane s.ports.opb i).toNat ∧
      (lane mx i).toNat = max (lane s.ports.opa i).toNat (lane s.ports.opb i).toNat

/-- From R82 (a derived rule of the spec): MAX selects by CMPGE and MIN by CMPLT; each is commutative and idempotent. -/
def Obligations.MinMaxBySelect : Prop :=
  ∀ s : State, ∃ lt ge mn mx,
    completesWith .cmplt s lt ∧ completesWith .cmpge s ge ∧ completesWith .min s mn ∧ completesWith .max s mx ∧
    completesWith .sel (s.withOperands s.ports.opa s.ports.opb lt) mn ∧
    completesWith .sel (s.withOperands s.ports.opa s.ports.opb ge) mx ∧
    completesWith .min (s.withOperands s.ports.opb s.ports.opa s.ports.opm) mn ∧
    completesWith .max (s.withOperands s.ports.opb s.ports.opa s.ports.opm) mx ∧
    completesWith .min (s.withOperands s.ports.opa s.ports.opa s.ports.opm) s.ports.opa ∧
    completesWith .max (s.withOperands s.ports.opa s.ports.opa s.ports.opm) s.ports.opa

/-! ### Shifts and population count -/

/-- R83, R84. -/
def Obligations.ShiftsPerLane : Prop :=
  ∀ n < 8, encode (.shl n) = 0x0024 ||| (BitVec.ofNat 16 n <<< 8) ∧
    encode (.shr n) = 0x0025 ||| (BitVec.ofNat 16 n <<< 8) ∧
  ∀ s : State, ∃ l r, completesWith (.shl n) s l ∧ completesWith (.shr n) s r ∧
    ∀ i < 8, lane l i = lane s.ports.opa i <<< n ∧ lane r i = lane s.ports.opa i >>> n

/-- R85: lane i is the number of one bits of lane i of A. -/
def Obligations.PopulationCountPerLane : Prop :=
  encode .pcnt = 0x0026 ∧
  ∀ s : State, ∃ r, completesWith .pcnt s r ∧
    ∀ i < 8, (lane r i).toNat = ((List.range 8).map fun j => (s.ports.opa.getLsbD (8 * i + j)).toNat).sum

/-- From R86 (a derived, informative rule of the spec). -/
def Obligations.ShiftCountReference : Prop :=
  ∀ s : State, completesWith .pcnt s (pcntRef s.ports.opa) ∧
    ∀ n < 8, completesWith (.shl n) s (shlRef n s.ports.opa) ∧ completesWith (.shr n) s (shrRef n s.ports.opa)

/-- From R85 and D18: the bit count of a whole word is HSUM of PCNT. -/
def Obligations.WordCountIsSumOfPcnt : Prop :=
  ∀ s : State, ∃ p n, completesWith .pcnt s p ∧
    completesWith .hsum (s.withOperands p s.ports.opb s.ports.opm) n ∧
    n.toNat = ((List.range 64).map fun j => (s.ports.opa.getLsbD j).toNat).sum

/-! ### Reductions -/

/-- R87 to R89. -/
def Obligations.MaskReductions : Prop :=
  encode .many = 0x0028 ∧ encode .mall = 0x0029 ∧ encode .mcount = 0x002A ∧
  ∀ s : State,
    (validMask s.ports.opm = true → ∃ any all cnt,
      completesWith .many s any ∧ completesWith .mall s all ∧ completesWith .mcount s cnt ∧
      (any = 0 ∨ any = 1) ∧ (any = 1 ↔ ∃ i < 8, lane s.ports.opm i = 0xFF) ∧
      (all = 0 ∨ all = 1) ∧ (all = 1 ↔ ∀ i < 8, lane s.ports.opm i = 0xFF) ∧
      cnt.toNat = ((List.range 8).map fun i => if lane s.ports.opm i = 0xFF then 1 else 0).sum) ∧
    (validMask s.ports.opm = false →
      raisesInvmask .many s ∧ raisesInvmask .mall s ∧ raisesInvmask .mcount s)

/-- R90: exact, at most 2040. -/
def Obligations.HorizontalSumIsExact : Prop :=
  encode .hsum = 0x002C ∧
  ∀ s : State, ∃ r, completesWith .hsum s r ∧
    r.toNat = (lane s.ports.opa 0).toNat + (lane s.ports.opa 1).toNat + (lane s.ports.opa 2).toNat +
      (lane s.ports.opa 3).toNat + (lane s.ports.opa 4).toNat + (lane s.ports.opa 5).toNat +
      (lane s.ports.opa 6).toNat + (lane s.ports.opa 7).toNat ∧
    r.toNat ≤ 2040

/-- R91, R92: a lane value that no lane is below, above. -/
def Obligations.HorizontalMinMax : Prop :=
  encode .hmin = 0x002D ∧ encode .hmax = 0x002E ∧
  ∀ s : State, ∃ mn mx, completesWith .hmin s mn ∧ completesWith .hmax s mx ∧
    (∃ i < 8, mn = (lane s.ports.opa i).setWidth 64) ∧ (∀ i < 8, mn.toNat ≤ (lane s.ports.opa i).toNat) ∧
    (∃ i < 8, mx = (lane s.ports.opa i).setWidth 64) ∧ (∀ i < 8, (lane s.ports.opa i).toNat ≤ mx.toNat)

/-- From R93 (a derived, informative rule of the spec). -/
def Obligations.ReductionReference : Prop :=
  ∀ s : State, completesWith .hsum s (hsumRef s.ports.opa) ∧
    completesWith .hmin s (hminRef s.ports.opa) ∧ completesWith .hmax s (hmaxRef s.ports.opa)

/-! ### Status and exceptions -/

/-- R94. -/
def Obligations.ReadStatus : Prop :=
  encode .rdstat = 0x003C ∧
  ∀ s : State, completesWith .rdstat s (s.readStatus.setWidth 64) ∧ (s.readStatus.setWidth 64).toNat ≤ 3

/-- R95, with its illegal neighbour 0x013D, which sets STATUS[0] instead of clearing STATUS. -/
def Obligations.ReadAndClearStatus : Prop :=
  encode .clrstat = 0x003D ∧
  (∀ s : State, exec .clrstat s = .next { s with
      status := 0x00
      inFlight := s.inFlight ++
        [{ wait := Config.latencyLessOne, rsp := { r := s.readStatus.setWidth 64, exc := .none } }] } ∧
    (s.readStatus.setWidth 64).toNat ≤ 3) ∧
  ∀ s : State, s.ports.rst = false → s.resetDone = true → s.accepts = true → s.ports.cmd = 0x013D →
    ∃ u, step s = .next u ∧ u.readStatus = s.readStatus ||| 0x01

/-- R99, R100: exactly the five commands that read M check it, and INVMASK has exactly its effect; the others complete
whatever the ports hold (CLRSTAT writes STATUS, so its completion is stated apart). -/
def Obligations.MaskCheckRaisesInvmask : Prop :=
  (∀ i : Instr, readsM i = true ↔ i = .sel ∨ i = .mchk ∨ i = .many ∨ i = .mall ∨ i = .mcount) ∧
  ∀ (i : Instr) (s : State),
    (readsM i = true → validMask s.ports.opm = false → raisesInvmask i s) ∧
    (readsM i = true → validMask s.ports.opm = true → ∃ r, completesWith i s r) ∧
    (readsM i = false → i ≠ .clrstat → ∃ r, completesWith i s r)

/-- R102: STATUS over an edge without reset. -/
def Obligations.StatusBitsAreSticky : Prop :=
  ∀ s : State, s.resetDone = true → s.ports.rst = false →
    ∃ t, step s = .next t ∧
      (s.accepts = false → t.readStatus = s.readStatus) ∧
      (s.accepts = true → legal s.ports.cmd = false → t.readStatus = s.readStatus ||| 0x01) ∧
      ∀ i, s.accepts = true → decode s.ports.cmd = .ok i →
        t.readStatus =
          if readsM i = true ∧ validMask s.ports.opm = false then s.readStatus ||| 0x02
          else if i = .clrstat then 0x00 else s.readStatus

/-! ### What a command can depend on -/

/-- R46: a port that an instruction does not read has no effect on R, EXC or STATUS. -/
def Obligations.UnreadPortsAreIgnored : Prop :=
  ∀ (i : Instr) (s : State) (a b m : Word),
    (readsA i = true → a = s.ports.opa) → (readsB i = true → b = s.ports.opb) → (readsM i = true → m = s.ports.opm) →
    ∃ t, exec i s = .next t ∧ exec i (s.withOperands a b m) = .next (t.withOperands a b m)

/-- From R17: the result of a command that completes depends on its operands alone; only RDSTAT and CLRSTAT read
STATUS. -/
def Obligations.ResultsDependOnOperandsOnly : Prop :=
  ∀ (i : Instr) (s s' : State), i ≠ .rdstat → i ≠ .clrstat →
    s.ports.opa = s'.ports.opa → s.ports.opb = s'.ports.opb → s.ports.opm = s'.ports.opm →
    (readsM i = true → validMask s.ports.opm = true) →
    ∃ r, completesWith i s r ∧ completesWith i s' r

/-- From R20 and R101: a command of an unexceptional state, legal and with a valid mask, leaves the state so. -/
def Obligations.CleanCommandStaysClean : Prop :=
  ∀ (s : State) (i : Instr), s.clean = true → s.resetDone = true → s.ports.rst = false → s.accepts = true →
    decode s.ports.cmd = .ok i → (readsM i = true → validMask s.ports.opm = true) →
    ∃ t, step s = .next t ∧ t.clean = true ∧ (t.rspValid = true → t.rspExc = 0)

/-- From R33 (a derived rule of the spec): packing and unpacking are inverse. -/
def Obligations.PackUnpackRoundTrip : Prop :=
  (∀ v : Fin 8 → Byte, unpack (pack v) = v) ∧ ∀ w : Word, pack (unpack w) = w
end

