-- ==== Sys2Proof/Laws/State.lean ====
section
/-! SUPPORT. Laws/State.lean: what each field of State is after each update, so that no later proof unfolds one. -/

namespace Sys2Proof.Machine

/-! ### writeStatus -/

@[simp] theorem State.writeStatus_status (s : State) (v : Byte) :
    (s.writeStatus v).status = v &&& statusMask := rfl

@[simp] theorem State.writeStatus_inFlight (s : State) (v : Byte) :
    (s.writeStatus v).inFlight = s.inFlight := rfl

@[simp] theorem State.writeStatus_rspValid (s : State) (v : Byte) :
    (s.writeStatus v).rspValid = s.rspValid := rfl

@[simp] theorem State.writeStatus_rspR (s : State) (v : Byte) :
    (s.writeStatus v).rspR = s.rspR := rfl

@[simp] theorem State.writeStatus_rspExc (s : State) (v : Byte) :
    (s.writeStatus v).rspExc = s.rspExc := rfl

@[simp] theorem State.writeStatus_stall (s : State) (v : Byte) :
    (s.writeStatus v).stall = s.stall := rfl

@[simp] theorem State.writeStatus_resetDone (s : State) (v : Byte) :
    (s.writeStatus v).resetDone = s.resetDone := rfl

@[simp] theorem State.writeStatus_ports (s : State) (v : Byte) :
    (s.writeStatus v).ports = s.ports := rfl

@[simp] theorem State.writeStatus_hostQueue (s : State) (v : Byte) :
    (s.writeStatus v).hostQueue = s.hostQueue := rfl

@[simp] theorem State.writeStatus_draws (s : State) (v : Byte) :
    (s.writeStatus v).draws = s.draws := rfl

/-! ### setSticky -/

@[simp] theorem State.setSticky_status (s : State) (bit : Byte) :
    (s.setSticky bit).status = (s.readStatus ||| bit) &&& statusMask := rfl

@[simp] theorem State.setSticky_inFlight (s : State) (bit : Byte) :
    (s.setSticky bit).inFlight = s.inFlight := rfl

@[simp] theorem State.setSticky_rspValid (s : State) (bit : Byte) :
    (s.setSticky bit).rspValid = s.rspValid := rfl

@[simp] theorem State.setSticky_rspR (s : State) (bit : Byte) :
    (s.setSticky bit).rspR = s.rspR := rfl

@[simp] theorem State.setSticky_rspExc (s : State) (bit : Byte) :
    (s.setSticky bit).rspExc = s.rspExc := rfl

@[simp] theorem State.setSticky_stall (s : State) (bit : Byte) :
    (s.setSticky bit).stall = s.stall := rfl

@[simp] theorem State.setSticky_resetDone (s : State) (bit : Byte) :
    (s.setSticky bit).resetDone = s.resetDone := rfl

@[simp] theorem State.setSticky_ports (s : State) (bit : Byte) :
    (s.setSticky bit).ports = s.ports := rfl

@[simp] theorem State.setSticky_hostQueue (s : State) (bit : Byte) :
    (s.setSticky bit).hostQueue = s.hostQueue := rfl

@[simp] theorem State.setSticky_draws (s : State) (bit : Byte) :
    (s.setSticky bit).draws = s.draws := rfl

/-! ### respond -/

@[simp] theorem State.respond_status (s : State) (r : Word) (e : Exc) :
    (s.respond r e).status = s.status := rfl

@[simp] theorem State.respond_inFlight (s : State) (r : Word) (e : Exc) :
    (s.respond r e).inFlight = s.inFlight ++ [{ wait := Config.latencyLessOne, rsp := { r := r, exc := e } }] := rfl

@[simp] theorem State.respond_rspValid (s : State) (r : Word) (e : Exc) :
    (s.respond r e).rspValid = s.rspValid := rfl

@[simp] theorem State.respond_rspR (s : State) (r : Word) (e : Exc) :
    (s.respond r e).rspR = s.rspR := rfl

@[simp] theorem State.respond_rspExc (s : State) (r : Word) (e : Exc) :
    (s.respond r e).rspExc = s.rspExc := rfl

@[simp] theorem State.respond_stall (s : State) (r : Word) (e : Exc) :
    (s.respond r e).stall = s.stall := rfl

@[simp] theorem State.respond_resetDone (s : State) (r : Word) (e : Exc) :
    (s.respond r e).resetDone = s.resetDone := rfl

@[simp] theorem State.respond_ports (s : State) (r : Word) (e : Exc) :
    (s.respond r e).ports = s.ports := rfl

@[simp] theorem State.respond_hostQueue (s : State) (r : Word) (e : Exc) :
    (s.respond r e).hostQueue = s.hostQueue := rfl

@[simp] theorem State.respond_draws (s : State) (r : Word) (e : Exc) :
    (s.respond r e).draws = s.draws := rfl

/-! ### raiseIllop -/

@[simp] theorem State.raiseIllop_status (s : State) :
    s.raiseIllop.status = (s.readStatus ||| illopBit) &&& statusMask := rfl

@[simp] theorem State.raiseIllop_inFlight (s : State) :
    s.raiseIllop.inFlight = s.inFlight ++ [{ wait := Config.latencyLessOne, rsp := { r := 0, exc := .illop } }] := rfl

@[simp] theorem State.raiseIllop_rspValid (s : State) :
    s.raiseIllop.rspValid = s.rspValid := rfl

@[simp] theorem State.raiseIllop_rspR (s : State) :
    s.raiseIllop.rspR = s.rspR := rfl

@[simp] theorem State.raiseIllop_rspExc (s : State) :
    s.raiseIllop.rspExc = s.rspExc := rfl

@[simp] theorem State.raiseIllop_stall (s : State) :
    s.raiseIllop.stall = s.stall := rfl

@[simp] theorem State.raiseIllop_resetDone (s : State) :
    s.raiseIllop.resetDone = s.resetDone := rfl

@[simp] theorem State.raiseIllop_ports (s : State) :
    s.raiseIllop.ports = s.ports := rfl

@[simp] theorem State.raiseIllop_hostQueue (s : State) :
    s.raiseIllop.hostQueue = s.hostQueue := rfl

@[simp] theorem State.raiseIllop_draws (s : State) :
    s.raiseIllop.draws = s.draws := rfl

/-! ### raiseInvmask -/

@[simp] theorem State.raiseInvmask_status (s : State) :
    s.raiseInvmask.status = (s.readStatus ||| invmaskBit) &&& statusMask := rfl

@[simp] theorem State.raiseInvmask_inFlight (s : State) :
    s.raiseInvmask.inFlight = s.inFlight ++
      [{ wait := Config.latencyLessOne, rsp := { r := Config.invmaskResult s.draws, exc := .invmask } }] := rfl

@[simp] theorem State.raiseInvmask_rspValid (s : State) :
    s.raiseInvmask.rspValid = s.rspValid := rfl

@[simp] theorem State.raiseInvmask_rspR (s : State) :
    s.raiseInvmask.rspR = s.rspR := rfl

@[simp] theorem State.raiseInvmask_rspExc (s : State) :
    s.raiseInvmask.rspExc = s.rspExc := rfl

@[simp] theorem State.raiseInvmask_stall (s : State) :
    s.raiseInvmask.stall = s.stall := rfl

@[simp] theorem State.raiseInvmask_resetDone (s : State) :
    s.raiseInvmask.resetDone = s.resetDone := rfl

@[simp] theorem State.raiseInvmask_ports (s : State) :
    s.raiseInvmask.ports = s.ports := rfl

@[simp] theorem State.raiseInvmask_hostQueue (s : State) :
    s.raiseInvmask.hostQueue = s.hostQueue := rfl

@[simp] theorem State.raiseInvmask_draws (s : State) :
    s.raiseInvmask.draws = s.draws + 1 := rfl

/-! ### advanceHost -/

@[simp] theorem State.advanceHost_status (s : State) :
    s.advanceHost.status = s.status := rfl

@[simp] theorem State.advanceHost_inFlight (s : State) :
    s.advanceHost.inFlight = s.inFlight := rfl

@[simp] theorem State.advanceHost_rspValid (s : State) :
    s.advanceHost.rspValid = s.rspValid := rfl

@[simp] theorem State.advanceHost_rspR (s : State) :
    s.advanceHost.rspR = s.rspR := rfl

@[simp] theorem State.advanceHost_rspExc (s : State) :
    s.advanceHost.rspExc = s.rspExc := rfl

@[simp] theorem State.advanceHost_stall (s : State) :
    s.advanceHost.stall = s.stall := rfl

@[simp] theorem State.advanceHost_resetDone (s : State) :
    s.advanceHost.resetDone = s.resetDone := rfl

@[simp] theorem State.advanceHost_ports (s : State) :
    s.advanceHost.ports = s.hostQueue.headD idlePorts := rfl

@[simp] theorem State.advanceHost_hostQueue (s : State) :
    s.advanceHost.hostQueue = s.hostQueue.tail := rfl

@[simp] theorem State.advanceHost_draws (s : State) :
    s.advanceHost.draws = s.draws := rfl

/-! ### clock -/

@[simp] theorem State.clock_status (s : State) :
    s.clock.status = s.status := rfl

@[simp] theorem State.clock_inFlight (s : State) :
    s.clock.inFlight = stillInFlight s.inFlight := rfl

@[simp] theorem State.clock_rspValid (s : State) :
    s.clock.rspValid = (dueResponse s.inFlight).isSome := rfl

@[simp] theorem State.clock_rspR (s : State) :
    s.clock.rspR = portR (dueResponse s.inFlight) s.draws := rfl

@[simp] theorem State.clock_rspExc (s : State) :
    s.clock.rspExc = portExc (dueResponse s.inFlight) s.draws := rfl

@[simp] theorem State.clock_stall (s : State) :
    s.clock.stall = nextStall s.stall s.draws := rfl

@[simp] theorem State.clock_resetDone (s : State) :
    s.clock.resetDone = s.resetDone := rfl

@[simp] theorem State.clock_ports (s : State) :
    s.clock.ports = s.ports := rfl

@[simp] theorem State.clock_hostQueue (s : State) :
    s.clock.hostQueue = s.hostQueue := rfl

@[simp] theorem State.clock_draws (s : State) :
    s.clock.draws = s.draws + 1 := rfl

/-! ### acceptEdge -/

@[simp] theorem State.acceptEdge_status (s : State) :
    s.acceptEdge.status = s.status := rfl

@[simp] theorem State.acceptEdge_inFlight (s : State) :
    s.acceptEdge.inFlight = stillInFlight s.inFlight := rfl

@[simp] theorem State.acceptEdge_rspValid (s : State) :
    s.acceptEdge.rspValid = (dueResponse s.inFlight).isSome := rfl

@[simp] theorem State.acceptEdge_rspR (s : State) :
    s.acceptEdge.rspR = portR (dueResponse s.inFlight) s.draws := rfl

@[simp] theorem State.acceptEdge_rspExc (s : State) :
    s.acceptEdge.rspExc = portExc (dueResponse s.inFlight) s.draws := rfl

@[simp] theorem State.acceptEdge_stall (s : State) :
    s.acceptEdge.stall = nextStall s.stall s.draws := rfl

@[simp] theorem State.acceptEdge_resetDone (s : State) :
    s.acceptEdge.resetDone = s.resetDone := rfl

@[simp] theorem State.acceptEdge_ports (s : State) :
    s.acceptEdge.ports = s.hostQueue.headD idlePorts := rfl

@[simp] theorem State.acceptEdge_hostQueue (s : State) :
    s.acceptEdge.hostQueue = s.hostQueue.tail := rfl

@[simp] theorem State.acceptEdge_draws (s : State) :
    s.acceptEdge.draws = s.draws + 1 := rfl

/-! ### resetEdge -/

@[simp] theorem State.resetEdge_status (s : State) :
    s.resetEdge.status = 0x00 := rfl

@[simp] theorem State.resetEdge_inFlight (s : State) :
    s.resetEdge.inFlight = [] := rfl

@[simp] theorem State.resetEdge_rspValid (s : State) :
    s.resetEdge.rspValid = false := rfl

@[simp] theorem State.resetEdge_rspR (s : State) :
    s.resetEdge.rspR = Config.idleR s.draws := rfl

@[simp] theorem State.resetEdge_rspExc (s : State) :
    s.resetEdge.rspExc = Config.idleExc s.draws := rfl

@[simp] theorem State.resetEdge_stall (s : State) :
    s.resetEdge.stall = Config.readyStall s.draws := rfl

@[simp] theorem State.resetEdge_resetDone (s : State) :
    s.resetEdge.resetDone = true := rfl

@[simp] theorem State.resetEdge_ports (s : State) :
    s.resetEdge.ports = s.hostQueue.headD idlePorts := rfl

@[simp] theorem State.resetEdge_hostQueue (s : State) :
    s.resetEdge.hostQueue = s.hostQueue.tail := rfl

@[simp] theorem State.resetEdge_draws (s : State) :
    s.resetEdge.draws = s.draws + 1 := rfl

/-! ### unresetEdge -/

@[simp] theorem State.unresetEdge_status (s : State) :
    s.unresetEdge.status = Config.powerOnStatus s.draws &&& statusMask := rfl

@[simp] theorem State.unresetEdge_inFlight (s : State) :
    s.unresetEdge.inFlight = Config.powerOnInFlight s.draws := rfl

@[simp] theorem State.unresetEdge_rspValid (s : State) :
    s.unresetEdge.rspValid = Config.powerOnRspValid s.draws := rfl

@[simp] theorem State.unresetEdge_rspR (s : State) :
    s.unresetEdge.rspR = Config.powerOnRspR s.draws := rfl

@[simp] theorem State.unresetEdge_rspExc (s : State) :
    s.unresetEdge.rspExc = Config.powerOnRspExc s.draws := rfl

@[simp] theorem State.unresetEdge_stall (s : State) :
    s.unresetEdge.stall = Config.powerOnStall s.draws := rfl

@[simp] theorem State.unresetEdge_resetDone (s : State) :
    s.unresetEdge.resetDone = s.resetDone := rfl

@[simp] theorem State.unresetEdge_ports (s : State) :
    s.unresetEdge.ports = s.hostQueue.headD idlePorts := rfl

@[simp] theorem State.unresetEdge_hostQueue (s : State) :
    s.unresetEdge.hostQueue = s.hostQueue.tail := rfl

@[simp] theorem State.unresetEdge_draws (s : State) :
    s.unresetEdge.draws = s.draws + 1 := rfl

/-! ### driveCommand -/

@[simp] theorem State.driveCommand_status (s : State) (w : CmdWord) :
    (s.driveCommand w).status = s.status := rfl

@[simp] theorem State.driveCommand_inFlight (s : State) (w : CmdWord) :
    (s.driveCommand w).inFlight = s.inFlight := rfl

@[simp] theorem State.driveCommand_rspValid (s : State) (w : CmdWord) :
    (s.driveCommand w).rspValid = s.rspValid := rfl

@[simp] theorem State.driveCommand_rspR (s : State) (w : CmdWord) :
    (s.driveCommand w).rspR = s.rspR := rfl

@[simp] theorem State.driveCommand_rspExc (s : State) (w : CmdWord) :
    (s.driveCommand w).rspExc = s.rspExc := rfl

@[simp] theorem State.driveCommand_stall (s : State) (w : CmdWord) :
    (s.driveCommand w).stall = 0 := rfl

@[simp] theorem State.driveCommand_resetDone (s : State) (w : CmdWord) :
    (s.driveCommand w).resetDone = true := rfl

@[simp] theorem State.driveCommand_ports (s : State) (w : CmdWord) :
    (s.driveCommand w).ports = { s.ports with rst := false, cmdValid := true, cmd := w } := rfl

@[simp] theorem State.driveCommand_hostQueue (s : State) (w : CmdWord) :
    (s.driveCommand w).hostQueue = s.hostQueue := rfl

@[simp] theorem State.driveCommand_draws (s : State) (w : CmdWord) :
    (s.driveCommand w).draws = s.draws := rfl

end Sys2Proof.Machine
end

