-- ==== Sys2Proof/Laws/Ops.lean ====
section
/-! SUPPORT. Laws/Ops.lean: what each shared operation can do, said once. -/

namespace Sys2Proof.Machine

/-! ### STATUS -/

theorem readStatus_masked (s : State) : s.readStatus &&& statusMask = s.readStatus := by
  simp [State.readStatus, BitVec.and_assoc]

theorem State.readStatus_congr {s t : State} (h : t.status = s.status) : t.readStatus = s.readStatus := by
  simp [State.readStatus, h]

@[simp] theorem State.writeStatus_readStatus (s : State) (v : Byte) :
    (s.writeStatus v).readStatus = v &&& statusMask := by
  simp [State.readStatus, BitVec.and_assoc]

/-- STATUS bits 7:2 read as 0: STATUS is at most 3. -/
theorem readStatus_le (s : State) : s.readStatus.toNat ≤ 3 := by
  simp only [State.readStatus, statusMask, BitVec.toNat_and]
  exact Nat.and_le_right

theorem masked_or_illopBit (v : Byte) : (v &&& statusMask ||| illopBit) &&& statusMask = v &&& statusMask ||| illopBit := by
  rw [BitVec.and_or_distrib_right, BitVec.and_assoc]; rfl

theorem masked_or_invmaskBit (v : Byte) :
    (v &&& statusMask ||| invmaskBit) &&& statusMask = v &&& statusMask ||| invmaskBit := by
  rw [BitVec.and_or_distrib_right, BitVec.and_assoc]; rfl

/-- ILLOP sets STATUS[0] and keeps the other bit. -/
@[simp] theorem State.raiseIllop_readStatus (s : State) : s.raiseIllop.readStatus = s.readStatus ||| illopBit := by
  simp only [State.readStatus, State.raiseIllop_status, masked_or_illopBit]

/-- INVMASK sets STATUS[1] and keeps the other bit. -/
@[simp] theorem State.raiseInvmask_readStatus (s : State) :
    s.raiseInvmask.readStatus = s.readStatus ||| invmaskBit := by
  simp only [State.readStatus, State.raiseInvmask_status, masked_or_invmaskBit]

@[simp] theorem State.respond_readStatus (s : State) (r : Word) (e : Exc) :
    (s.respond r e).readStatus = s.readStatus := rfl

/-! ### A command's answer -/

/-- A command that reads M completes or raises INVMASK, as M is valid or not. -/
theorem withMask_cases (s : State) (f : Word → Word) :
    (validMask s.ports.opm = true ∧ s.withMask f = s.complete (f s.ports.opm)) ∨
    (validMask s.ports.opm = false ∧ s.withMask f = .next s.raiseInvmask) := by
  unfold State.withMask
  cases h : validMask s.ports.opm <;> simp

/-- What follows a command keeps its stop, or goes on from its next state. -/
theorem afterCommand_next_iff {x : Result} {u : State} :
    afterCommand x = .next u ↔ ∃ t, x = .next t ∧ u = t.acceptEdge := by
  cases x <;> simp [afterCommand, eq_comm]

/-! ### The ports -/

/-- When a command is accepted (10_state.md R25). -/
theorem accepts_iff (s : State) :
    s.accepts = true ↔ s.ports.cmdValid = true ∧ s.stall = 0 ∧ s.ports.rst = false := by
  simp only [State.accepts, State.cmdReady, Bool.and_eq_true, Bool.not_eq_true', beq_iff_eq]
  tauto

/-! ### The response port -/

/-- What is due is what leaves the pipeline: either the oldest response, its wait over, or nothing. -/
theorem due_cases (l : List InFlight) :
    (∃ p rest, l = p :: rest ∧ p.wait = 0 ∧ dueResponse l = some p.rsp ∧ stillInFlight l = rest.map ageInFlight) ∨
    ((∀ p ∈ l.head?, p.wait ≠ 0) ∧ dueResponse l = none ∧ stillInFlight l = l.map ageInFlight) := by
  cases l with
  | nil => exact .inr ⟨by simp, rfl, rfl⟩
  | cons p rest =>
    by_cases hw : p.wait = 0
    · exact .inl ⟨p, rest, rfl, hw, by simp [dueResponse, hw], by simp [stillInFlight, hw]⟩
    · exact .inr ⟨by simp [hw], by simp [dueResponse, hw], by simp [stillInFlight, hw]⟩

@[simp] theorem nextStall_zero (d : Nat) : nextStall 0 d = Config.readyStall d := rfl

@[simp] theorem nextStall_succ (n d : Nat) : nextStall (n + 1) d = n := rfl

/-! ### The clock -/

/-- A wait edge is the clock, and the host goes on unless it holds a command. -/
theorem waitEdge_cases (s : State) : s.waitEdge = s.clock ∨ s.waitEdge = s.clock.advanceHost := by
  unfold State.waitEdge
  split <;> simp

end Sys2Proof.Machine
end

