-- ==== Sys2Proof/Laws/Exec.lean ====
section
/-! SUPPORT. Laws/Exec.lean: what `exec` can do, said once for all instructions. -/

namespace Sys2Proof.Machine

/-- An instruction whose meaning checks M completes with its result, or raises INVMASK. -/
theorem exec_masked {i : Instr} {s : State} {f : Word → Word} (hr : readsM i = true) (hi : exec i s = s.withMask f)
    (hc : i ≠ .clrstat) (hf : f s.ports.opm = Reference.resultWord i s.readStatus s.ports.opa s.ports.opb s.ports.opm) :
    (i ≠ .clrstat ∧ (readsM i = true → validMask s.ports.opm = true) ∧
      exec i s = s.complete
        (Reference.resultWord i s.readStatus s.ports.opa s.ports.opb s.ports.opm)) ∨
    (readsM i = true ∧ validMask s.ports.opm = false ∧ exec i s = .next s.raiseInvmask) := by
  rw [hi, ← hf]
  rcases withMask_cases s f with ⟨hv, h⟩ | ⟨hv, h⟩
  · exact .inl ⟨hc, fun _ => hv, h⟩
  · exact .inr ⟨hr, hv, h⟩

/-- Every instruction completes, or raises INVMASK because it reads an M that is no mask, or is CLRSTAT. -/
theorem exec_cases (i : Instr) (s : State) :
    (i ≠ .clrstat ∧ (readsM i = true → validMask s.ports.opm = true) ∧
      exec i s = s.complete
        (Reference.resultWord i s.readStatus s.ports.opa s.ports.opb s.ports.opm)) ∨
    (readsM i = true ∧ validMask s.ports.opm = false ∧ exec i s = .next s.raiseInvmask) ∨
    (i = .clrstat ∧ exec i s = (s.writeStatus 0x00).complete (s.readStatus.setWidth 64)) := by
  cases i
  case sel | mchk | many | mall | mcount =>
    rw [← or_assoc]
    exact .inl (exec_masked rfl rfl (by simp) rfl)
  case clrstat => exact .inr (.inr ⟨rfl, rfl⟩)
  all_goals exact .inl ⟨by simp, by simp [readsM], rfl⟩

/-- No instruction stops: `exec` always answers a next state. -/
theorem exec_next (i : Instr) (s : State) : ∃ t, exec i s = .next t := by
  rcases exec_cases i s with ⟨-, -, h⟩ | ⟨-, -, h⟩ | ⟨-, h⟩
  · exact ⟨_, h⟩
  · exact ⟨_, h⟩
  · exact ⟨_, h⟩

/-- A completion in the words of the claims. -/
theorem completesWith_iff (i : Instr) (s : State) (r : Word) : completesWith i s r ↔ exec i s = s.complete r := Iff.rfl

/-- INVMASK in the words of the claims. -/
theorem raisesInvmask_of_next {i : Instr} {s : State} (h : exec i s = .next s.raiseInvmask) : raisesInvmask i s := by
  refine ⟨Config.invmaskResult s.draws, h.trans ?_⟩
  congr 1
  simp only [State.raiseInvmask, State.setSticky, State.writeStatus, State.respond, State.readStatus,
    masked_or_invmaskBit]
  rfl

end Sys2Proof.Machine
end

