-- ==== Sys2Proof/Laws/Operands.lean ====
section
/-! SUPPORT. Laws/Operands.lean: the laws of lanes, packing and masks. -/

namespace Sys2Proof.Machine

/-- Bit j of lane i is bit 8i+j of the word. -/
theorem lane_getLsbD (w : Word) (i j : Nat) : (lane w i).getLsbD j = (decide (j < 8) && w.getLsbD (8 * i + j)) := by
  simp [lane, BitVec.getLsbD_extractLsb']

/-- A lane as a number: the word's digit at base 256. -/
theorem lane_toNat (w : Word) (i : Nat) : (lane w i).toNat = w.toNat / 2 ^ (8 * i) % 256 := by
  simp [lane, BitVec.extractLsb'_toNat, Nat.shiftRight_eq_div_pow]

/-- A word as a number, from its lanes. -/
theorem word_toNat (w : Word) : w.toNat =
    (lane w 0).toNat + 256 * (lane w 1).toNat + 65536 * (lane w 2).toNat + 16777216 * (lane w 3).toNat +
    4294967296 * (lane w 4).toNat + 1099511627776 * (lane w 5).toNat + 281474976710656 * (lane w 6).toNat +
    72057594037927936 * (lane w 7).toNat := by
  have h := w.isLt
  simp only [lane_toNat]
  omega

/-- Two words with the same eight lanes are equal. -/
theorem word_ext_lanes {a b : Word} (h : ∀ i < 8, lane a i = lane b i) : a = b := by
  apply BitVec.eq_of_toNat_eq
  rw [word_toNat a, word_toNat b, h 0 (by omega), h 1 (by omega), h 2 (by omega), h 3 (by omega),
    h 4 (by omega), h 5 (by omega), h 6 (by omega), h 7 (by omega)]

/-- Lane i of a packed word is the i-th byte. -/
theorem lane_pack (v : Fin 8 → Byte) (i : Fin 8) : lane (pack v) i.val = v i := by
  apply BitVec.eq_of_getLsbD_eq
  intro j hj
  rw [lane_getLsbD]
  fin_cases i <;> simp [pack, hj] <;> grind

/-- Lane i of a lane-wise result. -/
theorem lane_lanewise (f : Nat → Byte) {i : Nat} (hi : i < 8) : lane (lanewise f) i = f i :=
  lane_pack (fun k => f k.val) ⟨i, hi⟩

/-- Every lane of `BYTES8(x)` is x. -/
theorem lane_bytes8 (x : Byte) {i : Nat} (hi : i < 8) : lane (bytes8 x) i = x := lane_lanewise _ hi

/-- A lane-wise result is known by its lanes. -/
theorem eq_lanewise {w : Word} {f : Nat → Byte} (h : ∀ i < 8, lane w i = f i) : w = lanewise f :=
  word_ext_lanes fun i hi => (h i hi).trans (lane_lanewise f hi).symm

theorem lane_and (a b : Word) (i : Nat) : lane (a &&& b) i = lane a i &&& lane b i := by
  simp [lane, BitVec.extractLsb'_and]

theorem lane_or (a b : Word) (i : Nat) : lane (a ||| b) i = lane a i ||| lane b i := by
  simp [lane, BitVec.extractLsb'_or]

theorem lane_xor (a b : Word) (i : Nat) : lane (a ^^^ b) i = lane a i ^^^ lane b i := by
  simp [lane, BitVec.extractLsb'_xor]

theorem lane_not (a : Word) {i : Nat} (hi : i < 8) : lane (~~~a) i = ~~~lane a i := by
  apply BitVec.eq_of_getLsbD_eq
  intro j hj
  simp only [lane_getLsbD, BitVec.getLsbD_not, hj, decide_true, Bool.true_and]
  simp [show 8 * i + j < 64 by omega]

/-- A valid mask's lanes are 0x00 or 0xFF. -/
theorem validMask_iff (m : Word) : validMask m = true ↔ ∀ i < 8, lane m i = 0x00 ∨ lane m i = 0xFF := by
  simp [validMask, List.all_eq_true]

theorem maskByte_true : maskByte true = 0xFF := rfl

theorem maskByte_false : maskByte false = 0x00 := rfl

/-- A word of mask bytes is a valid mask. -/
theorem validMask_lanewise_maskByte (c : Nat → Bool) : validMask (lanewise fun i => maskByte (c i)) = true := by
  rw [validMask_iff]
  intro i hi
  rw [lane_lanewise _ hi]
  cases c i <;> simp [maskByte]

end Sys2Proof.Machine
end

