-- ==== Sys2Proof/Laws/PerInstr.lean ====
section
/-! SUPPORT. Laws/PerInstr.lean: the encoded word of each instruction, field by field (spec/30_encoding.md R43), one
lemma per constructor. -/

namespace Sys2Proof.Laws.EncodeFields

/-- A well-formed instruction's word has its OP and its immediate where R43 puts them, and 0 in both reserved fields. -/
def Statement (i : Instr) : Prop :=
  i.wellFormed = true →
    cmdOp (encode i) = opcode i ∧ (cmdImm3 (encode i)).toNat = immediate i ∧
    cmdRsva (encode i) = 0 ∧ cmdRsvb (encode i) = 0

/-- The fields of a packed word. -/
theorem fields_of_cmdPack (imm3 : BitVec 3) (op : BitVec 6) :
    cmdOp (cmdPack imm3 op) = op ∧ cmdImm3 (cmdPack imm3 op) = imm3 ∧
    cmdRsva (cmdPack imm3 op) = 0 ∧ cmdRsvb (cmdPack imm3 op) = 0 := by
  refine ⟨?_, ?_, ?_, ?_⟩ <;> apply BitVec.eq_of_getLsbD_eq <;> intro j hj <;>
    simp [cmdOp, cmdImm3, cmdRsva, cmdRsvb, cmdPack, hj] <;> grind

/-- What is left to show of an instruction is that its immediate fits. -/
theorem of_immediate_lt {i : Instr} (h : i.wellFormed = true → immediate i < 8) : Statement i := by
  intro hw
  obtain ⟨ho, hi, ha, hb⟩ := fields_of_cmdPack (BitVec.ofNat 3 (immediate i)) (opcode i)
  exact ⟨ho, by rw [encode, hi, BitVec.toNat_ofNat]; exact Nat.mod_eq_of_lt (h hw), ha, hb⟩

theorem bcast : Statement .bcast := of_immediate_lt fun _ => Nat.zero_lt_succ 7

theorem extr (k : Nat) : Statement (.extr k) :=
  of_immediate_lt fun h => of_decide_eq_true h

theorem add : Statement .add := of_immediate_lt fun _ => Nat.zero_lt_succ 7

theorem sub : Statement .sub := of_immediate_lt fun _ => Nat.zero_lt_succ 7

theorem adds : Statement .adds := of_immediate_lt fun _ => Nat.zero_lt_succ 7

theorem subs : Statement .subs := of_immediate_lt fun _ => Nat.zero_lt_succ 7

theorem cmpeq : Statement .cmpeq := of_immediate_lt fun _ => Nat.zero_lt_succ 7

theorem cmpne : Statement .cmpne := of_immediate_lt fun _ => Nat.zero_lt_succ 7

theorem cmplt : Statement .cmplt := of_immediate_lt fun _ => Nat.zero_lt_succ 7

theorem cmple : Statement .cmple := of_immediate_lt fun _ => Nat.zero_lt_succ 7

theorem cmpgt : Statement .cmpgt := of_immediate_lt fun _ => Nat.zero_lt_succ 7

theorem cmpge : Statement .cmpge := of_immediate_lt fun _ => Nat.zero_lt_succ 7

theorem and : Statement .and := of_immediate_lt fun _ => Nat.zero_lt_succ 7

theorem or : Statement .or := of_immediate_lt fun _ => Nat.zero_lt_succ 7

theorem xor : Statement .xor := of_immediate_lt fun _ => Nat.zero_lt_succ 7

theorem not : Statement .not := of_immediate_lt fun _ => Nat.zero_lt_succ 7

theorem sel : Statement .sel := of_immediate_lt fun _ => Nat.zero_lt_succ 7

theorem mchk : Statement .mchk := of_immediate_lt fun _ => Nat.zero_lt_succ 7

theorem min : Statement .min := of_immediate_lt fun _ => Nat.zero_lt_succ 7

theorem max : Statement .max := of_immediate_lt fun _ => Nat.zero_lt_succ 7

theorem shl (n : Nat) : Statement (.shl n) :=
  of_immediate_lt fun h => of_decide_eq_true h

theorem shr (n : Nat) : Statement (.shr n) :=
  of_immediate_lt fun h => of_decide_eq_true h

theorem pcnt : Statement .pcnt := of_immediate_lt fun _ => Nat.zero_lt_succ 7

theorem many : Statement .many := of_immediate_lt fun _ => Nat.zero_lt_succ 7

theorem mall : Statement .mall := of_immediate_lt fun _ => Nat.zero_lt_succ 7

theorem mcount : Statement .mcount := of_immediate_lt fun _ => Nat.zero_lt_succ 7

theorem hsum : Statement .hsum := of_immediate_lt fun _ => Nat.zero_lt_succ 7

theorem hmin : Statement .hmin := of_immediate_lt fun _ => Nat.zero_lt_succ 7

theorem hmax : Statement .hmax := of_immediate_lt fun _ => Nat.zero_lt_succ 7

theorem rdstat : Statement .rdstat := of_immediate_lt fun _ => Nat.zero_lt_succ 7

theorem clrstat : Statement .clrstat := of_immediate_lt fun _ => Nat.zero_lt_succ 7

end Sys2Proof.Laws.EncodeFields
end

