-- ==== Sys2Proof/Laws/Step.lean ====
section
/-! SUPPORT. Laws/Step.lean: what one edge can do, said once, and the order of responses. -/

namespace Sys2Proof.Machine

/-- The four kinds of edge. -/
theorem step_cases (s : State) :
    (s.ports.rst = true ∧ step s = .next s.resetEdge) ∨
    (s.ports.rst = false ∧ s.resetDone = false ∧ step s = .next s.unresetEdge) ∨
    (s.ports.rst = false ∧ s.resetDone = true ∧ s.accepts = true ∧ step s = s.commandEdge) ∨
    (s.ports.rst = false ∧ s.resetDone = true ∧ s.accepts = false ∧ step s = .next s.waitEdge) := by
  unfold step
  cases s.ports.rst <;> cases s.resetDone <;> cases s.accepts <;> simp

/-- The accepting edge runs the decoded instruction. -/
theorem commandEdge_legal {s : State} {i : Instr} (h : decode s.ports.cmd = .ok i) :
    s.commandEdge = afterCommand (exec i s) := by
  simp [State.commandEdge, h]

/-- The accepting edge of an illegal word raises ILLOP. -/
theorem commandEdge_illegal {s : State} {e : Illegal} (h : decode s.ports.cmd = .error e) :
    s.commandEdge = .next s.raiseIllop.acceptEdge := by
  simp [State.commandEdge, h, afterCommand]

theorem step_accept {s : State} (h1 : s.ports.rst = false) (h2 : s.resetDone = true) (h3 : s.accepts = true) :
    step s = s.commandEdge := by
  simp [step, h1, h2, h3]

theorem step_wait {s : State} (h1 : s.ports.rst = false) (h2 : s.resetDone = true) (h3 : s.accepts = false) :
    step s = .next s.waitEdge := by
  simp [step, h1, h2, h3]

/-- An accepted command does to STATUS and to the responses what the transaction-level function says, before the rest of
its edge; nothing else of the unit changes. -/
theorem commandEdge_transacts (s : State) : ∃ t : State, s.commandEdge = .next t.acceptEdge ∧
    t.readStatus = (Reference.transact s.readStatus s.ports.cmd s.ports.opa s.ports.opb s.ports.opm
      (Config.invmaskResult s.draws)).status ∧
    t.inFlight = s.inFlight ++ [{
      wait := Config.latencyLessOne
      rsp := (Reference.transact s.readStatus s.ports.cmd s.ports.opa s.ports.opb s.ports.opm
        (Config.invmaskResult s.draws)).rsp }] ∧
    t.resetDone = s.resetDone ∧ t.stall = s.stall ∧ t.ports = s.ports ∧ t.hostQueue = s.hostQueue ∧
    (s.status &&& 0xFC = 0 → t.status &&& 0xFC = 0) := by
  cases hd : decode s.ports.cmd with
  | error e =>
    refine ⟨s.raiseIllop, commandEdge_illegal hd, ?_⟩
    simp [Reference.transact, hd, BitVec.and_assoc, statusMask]
  | ok i =>
    have h0 := commandEdge_legal hd
    rcases exec_cases i s with ⟨hc, hm, h⟩ | ⟨hr, hv, h⟩ | ⟨hc, h⟩
    · refine ⟨_, by rw [h0, h]; rfl, ?_⟩
      have hmask : (readsM i && !validMask s.ports.opm) = false := by
        cases h1 : readsM i
        · rfl
        · simp [hm h1]
      simp only [Reference.transact, hd, hmask, hc, if_neg, not_false_eq_true, Bool.false_eq_true]
      exact ⟨State.readStatus_congr rfl, rfl, rfl, rfl, rfl, rfl, id⟩
    · refine ⟨_, by rw [h0, h]; rfl, ?_⟩
      simp [Reference.transact, hd, hr, hv, BitVec.and_assoc, statusMask]
    · refine ⟨_, by rw [h0, h]; rfl, ?_⟩
      subst hc
      simp [Reference.transact, hd, readsM, Reference.resultWord, State.readStatus]

/-! ### What the edges around a command leave alone -/

@[simp] theorem State.acceptEdge_readStatus (s : State) : s.acceptEdge.readStatus = s.readStatus :=
  State.readStatus_congr rfl

@[simp] theorem State.waitEdge_readStatus (s : State) : s.waitEdge.readStatus = s.readStatus :=
  State.readStatus_congr (by rcases waitEdge_cases s with h | h <;> simp [h])

@[simp] theorem State.waitEdge_resetDone (s : State) : s.waitEdge.resetDone = s.resetDone := by
  rcases waitEdge_cases s with h | h <;> simp [h]

/-- After an accepting edge the operand ports of its command are gone. -/
theorem acceptEdge_withOperands (s : State) (a b m : Word) : (s.withOperands a b m).acceptEdge = s.acceptEdge := rfl

/-! ### Responses -/

@[simp] theorem map_ageInFlight_onPort (l : List InFlight) :
    (l.map ageInFlight).map (fun p => onPort p.rsp) = l.map fun p => onPort p.rsp := by
  simp [ageInFlight]

/-- An edge loses, adds and reorders no response (10_state.md R26). -/
theorem clock_keeps_responses (s : State) : s.clock.presented ++ s.clock.outstanding = s.outstanding := by
  rcases due_cases s.inFlight with ⟨p, rest, hl, -, hd, hs⟩ | ⟨-, hd, hs⟩
  · simp [State.presented, State.outstanding, hl ▸ hd, hl ▸ hs, hl, portR, portExc, onPort, ageInFlight]
  · simp [State.presented, State.outstanding, hd, hs, ageInFlight]

/-- What the host drives next has no part in the responses. -/
theorem advanceHost_responses (s : State) :
    s.advanceHost.presented = s.presented ∧ s.advanceHost.outstanding = s.outstanding := ⟨rfl, rfl⟩

theorem acceptEdge_keeps_responses (s : State) :
    s.acceptEdge.presented ++ s.acceptEdge.outstanding = s.outstanding := by
  simp [State.acceptEdge, advanceHost_responses, clock_keeps_responses]

theorem waitEdge_keeps_responses (s : State) :
    s.waitEdge.presented ++ s.waitEdge.outstanding = s.outstanding := by
  rcases waitEdge_cases s with h | h <;> simp [h, advanceHost_responses, clock_keeps_responses]

/-- One edge passes for a well-spaced pipeline: the spacing stays, with one more place free at its end. -/
theorem ageInFlight_pipeline {l : List InFlight} {n : Nat} (hl : l.Pairwise fun p q => p.wait < q.wait)
    (h0 : ∀ p ∈ l, 0 < p.wait) (hn : ∀ p ∈ l, p.wait < n + 1) :
    (l.map ageInFlight).Pairwise (fun p q => p.wait < q.wait) ∧ ∀ p ∈ l.map ageInFlight, p.wait < n := by
  constructor
  · rw [List.pairwise_map]
    exact hl.imp_of_mem fun {a b} ha hb hab => by
      have := h0 a ha
      simp only [ageInFlight]
      omega
  · simp only [List.mem_map, forall_exists_index, and_imp, forall_apply_eq_imp_iff₂, ageInFlight]
    intro p hp
    have := h0 p hp
    have := hn p hp
    omega

end Sys2Proof.Machine
end

