-- ==== Sys2Proof/Tests/Slice0.lean ====
section
/-! SUPPORT. Tests/Slice0.lean: checks of the model against values from outside it: words written from the encoding
tables of spec/30_encoding.md, the vectors of spec/95_test_vectors.md (named in each theorem), and witnesses that the
hypotheses of the statements can be met. -/

namespace Sys2Proof.Tests

open Sys2Proof.Machine

/-! ### Small states -/

/-- A state whose next edge accepts this command, with nothing in flight and no command to follow. -/
def atEdge (w : CmdWord) (a b m : Word) (status : Byte) : State :=
  { State.reset with
    status := status
    stall := 0
    ports := { rst := false, cmdValid := true, cmd := w, opa := a, opb := b, opm := m, hold := false } }

/-- The state the accepted command leaves, before the rest of its edge. -/
def afterExec (s : State) : Option State :=
  match decode s.ports.cmd with
  | .error _ => some s.raiseIllop
  | .ok i =>
    match exec i s with
    | .next t => some t
    | .fault _ => none
    | .refused _ => none

/-- R, EXC and STATUS after the command. -/
def answered (s : State) : Option (Word × BitVec 2 × Byte) :=
  match afterExec s with
  | some t =>
    match t.inFlight with
    | [p] => some (p.rsp.r, excCode p.rsp.exc, t.readStatus)
    | _ => none
  | none => none

/-- EXC and STATUS after a command whose R is unspecified. -/
def raised (s : State) : Option (BitVec 2 × Byte) :=
  match afterExec s with
  | some t =>
    match t.inFlight with
    | [p] => some (excCode p.rsp.exc, t.readStatus)
    | _ => none
  | none => none

/-! ### Well-formedness: each check refuses a term it should -/

theorem test_extr_8_is_ill_formed : (Instr.extr 8).wellFormed = false := by decide

theorem test_shl_8_is_ill_formed : (Instr.shl 8).wellFormed = false := by decide

theorem test_shr_8_is_ill_formed : (Instr.shr 8).wellFormed = false := by decide

/-! ### Decoding: words written out from R43 (`RRRRR iii rr oooooo`) and R47 -/

/-- The instruction a word decodes to. -/
def decoded (w : CmdWord) : Option Instr :=
  match decode w with
  | .ok i => some i
  | .error _ => none

theorem test_decode_lane_access :
    decoded 0b00000_000_00_000001 = some .bcast ∧ decoded 0b00000_101_00_000010 = some (.extr 5) := by decide

theorem test_decode_add_sub :
    decoded 0b00000_000_00_001000 = some .add ∧ decoded 0b00000_000_00_001001 = some .sub ∧
    decoded 0b00000_000_00_001010 = some .adds ∧ decoded 0b00000_000_00_001011 = some .subs := by decide

theorem test_decode_compare :
    decoded 0b00000_000_00_010000 = some .cmpeq ∧ decoded 0b00000_000_00_010001 = some .cmpne ∧
    decoded 0b00000_000_00_010010 = some .cmplt ∧ decoded 0b00000_000_00_010011 = some .cmple ∧
    decoded 0b00000_000_00_010100 = some .cmpgt ∧ decoded 0b00000_000_00_010101 = some .cmpge := by decide

theorem test_decode_logic_select :
    decoded 0b00000_000_00_011000 = some .and ∧ decoded 0b00000_000_00_011001 = some .or ∧
    decoded 0b00000_000_00_011010 = some .xor ∧ decoded 0b00000_000_00_011011 = some .not ∧
    decoded 0b00000_000_00_011100 = some .sel ∧ decoded 0b00000_000_00_011101 = some .mchk := by decide

theorem test_decode_minmax_shift_count :
    decoded 0b00000_000_00_100000 = some .min ∧ decoded 0b00000_000_00_100001 = some .max ∧
    decoded 0b00000_001_00_100100 = some (.shl 1) ∧ decoded 0b00000_110_00_100101 = some (.shr 6) ∧
    decoded 0b00000_000_00_100110 = some .pcnt := by decide

theorem test_decode_reductions :
    decoded 0b00000_000_00_101000 = some .many ∧ decoded 0b00000_000_00_101001 = some .mall ∧
    decoded 0b00000_000_00_101010 = some .mcount ∧ decoded 0b00000_000_00_101100 = some .hsum ∧
    decoded 0b00000_000_00_101101 = some .hmin ∧ decoded 0b00000_000_00_101110 = some .hmax := by decide

theorem test_decode_status :
    decoded 0b00000_000_00_111100 = some .rdstat ∧ decoded 0b00000_000_00_111101 = some .clrstat := by decide

/-- R49's reserved OP values, each bullet's kind of illegal word, and IMM3 on an operation that does not use it. -/
theorem test_decode_illegal :
    ([0x00, 0x03, 0x07, 0x0C, 0x0F, 0x16, 0x17, 0x1E, 0x1F, 0x22, 0x23, 0x27, 0x2B, 0x2F, 0x3B, 0x3E, 0x3F,
      0x0048, 0x0088, 0x0808, 0x8024, 0x0108, 0x013D, 0x011C] : List CmdWord).all
      (fun w => (decoded w).isNone && !legal w) = true := by decide

/-- No word fits two rows of R48. -/
theorem test_rows_do_not_overlap :
    matchRows.Pairwise (fun p q => p.1 &&& (p.2 &&& q.2) ≠ q.1 &&& (p.2 &&& q.2)) := by decide

/-- The host's numbering: one 16-bit word. -/
theorem test_table_word : decodeTableWord 16 0x0724 = some (.shl 7) ∧ decodeTableWord 16 0x0724 ≠ some (.shl 6) := by
  decide

/-! ### Notation (R52, R53) -/

theorem test_assembly : assembly (.extr 3) = "EXTR 3" ∧ assembly .add = "ADD" ∧ expand .blend = .sel ∧
    pseudoMnemonic .mand = "MAND" ∧ expand .mand = .and := by decide

/-! ### Commands: the vectors of 95_test_vectors.md section 2 -/

theorem test_bcast_V3 : answered (atEdge 0x0001 0x123456789ABCDE5A 0 0 0x00) =
    some (0x5A5A5A5A5A5A5A5A, 0, 0x00) := by decide

theorem test_extr_V8 : answered (atEdge 0x0302 0x8877665544332211 0 0 0x00) =
    some (0x0000000000000044, 0, 0x00) := by decide

theorem test_extr_V12 : answered (atEdge 0x0702 0x8877665544332211 0 0 0x00) =
    some (0x0000000000000088, 0, 0x00) := by decide

theorem test_add_V13 : answered (atEdge 0x0008 0x04030201FFFA0A00 0x00000001010A0505 0 0x00) =
    some (0x0403020200040F05, 0, 0x00) := by decide

theorem test_add_V20 : answered (atEdge 0x0008 0x7F7F7F7F7F7FFF7F 0x0000000000000100 0 0x00) =
    some (0x7F7F7F7F7F7F007F, 0, 0x00) := by decide

theorem test_sub_V15 : answered (atEdge 0x0009 0x04030201FFFA0A00 0x00000001010A0505 0 0x00) =
    some (0x04030200FEF005FB, 0, 0x00) := by decide

theorem test_sub_V28 : answered (atEdge 0x0009 0x0000000000000100 0x0000000000000001 0 0x00) =
    some (0x00000000000001FF, 0, 0x00) := by decide

theorem test_adds_V30 : answered (atEdge 0x000A 0x64C801FE00FF8080 0x6464FE0100FF807F 0 0x00) =
    some (0xC8FFFFFF00FFFFFF, 0, 0x00) := by decide

theorem test_subs_V31 : answered (atEdge 0x000B 0x64C8008001FF0500 0x6564FF7F02000501 0 0x00) =
    some (0x0064000100FF0000, 0, 0x00) := by decide

theorem test_cmpeq_V34 : answered (atEdge 0x0010 0xFF800505FF00807F 0xFE80060500FF7F80 0 0x00) =
    some (0x00FF00FF00000000, 0, 0x00) := by decide

theorem test_cmpne_V35 : answered (atEdge 0x0011 0xFF800505FF00807F 0xFE80060500FF7F80 0 0x00) =
    some (0xFF00FF00FFFFFFFF, 0, 0x00) := by decide

theorem test_cmplt_V36 : answered (atEdge 0x0012 0xFF800505FF00807F 0xFE80060500FF7F80 0 0x00) =
    some (0x0000FF0000FF00FF, 0, 0x00) := by decide

theorem test_cmple_V37 : answered (atEdge 0x0013 0xFF800505FF00807F 0xFE80060500FF7F80 0 0x00) =
    some (0x00FFFFFF00FF00FF, 0, 0x00) := by decide

theorem test_cmpgt_V38 : answered (atEdge 0x0014 0xFF800505FF00807F 0xFE80060500FF7F80 0 0x00) =
    some (0xFF000000FF00FF00, 0, 0x00) := by decide

theorem test_cmpge_V39 : answered (atEdge 0x0015 0xFF800505FF00807F 0xFE80060500FF7F80 0 0x00) =
    some (0xFFFF00FFFF00FF00, 0, 0x00) := by decide

theorem test_and_V43 : answered (atEdge 0x0018 0x04030201FFFA0A00 0x00000001010A0505 0 0x00) =
    some (0x00000001010A0000, 0, 0x00) := by decide

theorem test_or_V44 : answered (atEdge 0x0019 0x04030201FFFA0A00 0x00000001010A0505 0 0x00) =
    some (0x04030201FFFA0F05, 0, 0x00) := by decide

theorem test_xor_V45 : answered (atEdge 0x001A 0x04030201FFFA0A00 0x00000001010A0505 0 0x00) =
    some (0x04030200FEF00F05, 0, 0x00) := by decide

theorem test_not_V47 : answered (atEdge 0x001B 0x04030201FFFA0A00 0 0 0x00) =
    some (0xFBFCFDFE0005F5FF, 0, 0x00) := by decide

theorem test_sel_V52 : answered (atEdge 0x001C 0x04030201FFFA0A00 0x00000001010A0505 0xFF00FF00FF00FF00 0x00) =
    some (0x04000201FF0A0A05, 0, 0x00) := by decide

theorem test_sel_V54 : raised (atEdge 0x001C 0x04030201FFFA0A00 0x00000001010A0505 0x0000000000000001 0x01) =
    some (2, 0x03) := by decide

theorem test_mchk_V55 : answered (atEdge 0x001D 0 0 0x00FF00FF0000FFFF 0x00) =
    some (0x00FF00FF0000FFFF, 0, 0x00) := by decide

theorem test_mchk_V57 : raised (atEdge 0x001D 0 0 0x7FFFFFFFFFFFFFFF 0x00) =
    some (2, 0x02) := by decide

theorem test_min_V62 : answered (atEdge 0x0020 0x04030201FF00807F 0x0403020100FF7F80 0 0x00) =
    some (0x0403020100007F7F, 0, 0x00) := by decide

theorem test_max_V63 : answered (atEdge 0x0021 0x04030201FF00807F 0x0403020100FF7F80 0 0x00) =
    some (0x04030201FFFF8080, 0, 0x00) := by decide

theorem test_shl_V70 : answered (atEdge 0x0224 0x04030201FFFA0A00 0 0 0x00) =
    some (0x100C0804FCE82800, 0, 0x00) := by decide

theorem test_shl_V73 : answered (atEdge 0x0124 0x0000000000000080 0 0 0x00) =
    some (0x0000000000000000, 0, 0x00) := by decide

theorem test_shr_V71 : answered (atEdge 0x0325 0x04030201FFFA0A00 0 0 0x00) =
    some (0x000000001F1F0100, 0, 0x00) := by decide

theorem test_shr_V72 : answered (atEdge 0x0125 0x8000000000000001 0 0 0x00) =
    some (0x4000000000000000, 0, 0x00) := by decide

theorem test_pcnt_V74 : answered (atEdge 0x0026 0x04030201FFFA0A00 0 0 0x00) =
    some (0x0102010108060200, 0, 0x00) := by decide

theorem test_many_V80 : answered (atEdge 0x0028 0 0 0x00000000000000FF 0x00) =
    some (0x0000000000000001, 0, 0x00) := by decide

theorem test_many_V89 : raised (atEdge 0x0028 0 0 0x0000000000000100 0x00) =
    some (2, 0x02) := by decide

theorem test_mall_V87 : answered (atEdge 0x0029 0 0 0xFFFFFFFFFFFFFFFF 0x00) =
    some (0x0000000000000001, 0, 0x00) := by decide

theorem test_mall_V84 : answered (atEdge 0x0029 0 0 0xFF00FF00FF00FF00 0x00) =
    some (0x0000000000000000, 0, 0x00) := by decide

theorem test_mcount_V85 : answered (atEdge 0x002A 0 0 0xFF00FF00FF00FF00 0x00) =
    some (0x0000000000000004, 0, 0x00) := by decide

theorem test_mcount_V90 : raised (atEdge 0x002A 0 0 0x0101010101010101 0x00) =
    some (2, 0x02) := by decide

theorem test_hsum_V91 : answered (atEdge 0x002C 0x04030201FFFA0A00 0 0 0x00) =
    some (0x000000000000020D, 0, 0x00) := by decide

theorem test_hsum_V92 : answered (atEdge 0x002C 0xFFFFFFFFFFFFFFFF 0 0 0x00) =
    some (0x00000000000007F8, 0, 0x00) := by decide

theorem test_hmin_V96 : answered (atEdge 0x002D 0xC803040506070809 0 0 0x00) =
    some (0x0000000000000003, 0, 0x00) := by decide

theorem test_hmax_V98 : answered (atEdge 0x002E 0x050403020100807F 0 0 0x00) =
    some (0x0000000000000080, 0, 0x00) := by decide

theorem test_rdstat_V100 : answered (atEdge 0x003C 0 0 0 0x03) =
    some (0x0000000000000003, 0, 0x03) := by decide

theorem test_clrstat_V101 : answered (atEdge 0x003D 0 0 0 0x03) =
    some (0x0000000000000003, 0, 0x00) := by decide

theorem test_illegal_zeros_V103 : answered (atEdge 0x0000 0x04030201FFFA0A00 0x00000001010A0505 0x0000000000000000 0x00) =
    some (0x0000000000000000, 1, 0x01) := by decide

theorem test_illegal_rsva_V106 : answered (atEdge 0x0048 0x04030201FFFA0A00 0x00000001010A0505 0x0000000000000000 0x00) =
    some (0x0000000000000000, 1, 0x01) := by decide

theorem test_illegal_clrstat_imm3_V109 : answered (atEdge 0x013D 0x04030201FFFA0A00 0x00000001010A0505 0x0000000000000000 0x02) =
    some (0x0000000000000000, 1, 0x03) := by decide

theorem test_illegal_sel_imm3_V110 : answered (atEdge 0x011C 0x04030201FFFA0A00 0x00000001010A0505 0x0000000000000001 0x00) =
    some (0x0000000000000000, 1, 0x01) := by decide

/-! ### Edges -/

/-- STATUS and `rsp_valid` after one edge. -/
def afterEdge (s : State) : Option (Byte × Nat) :=
  match step s with
  | .next t => some (t.readStatus, t.inFlight.length + (if t.rspValid then 1 else 0))
  | .fault _ => none
  | .refused _ => none

/-- STATUS and whether `rsp_valid` is 1 after one edge. -/
def validAfterEdge (s : State) : Option (Byte × Bool) :=
  match step s with
  | .next t => some (t.readStatus, t.rspValid)
  | .fault _ => none
  | .refused _ => none

/-- A state with both sticky bits set and two responses in flight; the oldest is due at the next edge. -/
def busy (ports : Ports) : State :=
  { State.reset with
    status := 0x03
    stall := 1
    inFlight := [{ wait := 0, rsp := { r := 7, exc := .none } }, { wait := 1, rsp := { r := 0, exc := .illop } }]
    ports := ports }

/-- R111: the edge clears STATUS and discards what is in flight. -/
theorem test_reset_edge : afterEdge (busy { idlePorts with rst := true }) = some (0x00, 0) := by decide

/-- R26: an edge without a command presents the oldest response, and no other is lost. -/
theorem test_idle_edge_presents : validAfterEdge (busy idlePorts) = some (0x03, true) := by decide

/-- R119: a command presented while `cmd_ready` = 0 is not taken. -/
theorem test_not_ready_not_taken :
    validAfterEdge (busy { idlePorts with cmdValid := true, cmd := 0x003D }) = some (0x03, true) := by decide

/-- R98: the all-zero word, as the first command after reset. -/
theorem test_first_command_illegal :
    (afterEdge (State.reset.withFetchWord 16 0x0000)).map (fun p => p.1) = some 0x01 := by decide

/-- The first command after reset is the one placed on the port: it is accepted. -/
theorem test_first_command_taken :
    (State.reset.withFetchWord 16 0x0302).accepts = true ∧
    decoded (State.reset.withFetchWord 16 0x0302).ports.cmd = some (.extr 3) := by decide

/-! ### Witnesses: the hypotheses of the statements can be met -/

theorem witness_ResetValues : (busy { idlePorts with rst := true }).ports.rst = true := by decide

theorem witness_ResetEdgeClearsUnit :
    (State.powerOn { idlePorts with rst := true } []).ports.rst = true := by decide

theorem witness_OnlyResetStartsUnit : ∃ t, step (State.powerOn idlePorts []) = .next t := ⟨_, rfl⟩

/-- One state for each clause: a held command that is not taken, and a held command that is. -/
theorem witness_HostDrivesNextOrHolds :
    (∃ t, step (busy { idlePorts with cmdValid := true, hold := true }) = .next t) ∧
    (busy { idlePorts with cmdValid := true, hold := true }).accepts = false ∧
    (busy { idlePorts with cmdValid := true, hold := true }).resetDone = true ∧
    (∃ t, step (State.reset.withFetchWord 16 0x003C) = .next t) ∧
    (State.reset.withFetchWord 16 0x003C).accepts = true := ⟨⟨_, rfl⟩, by decide, by decide, ⟨_, rfl⟩, by decide⟩

theorem witness_StepRunsDecodedInstruction :
    (atEdge 0x0724 3 0 0 0).ports.rst = false ∧ (atEdge 0x0724 3 0 0 0).resetDone = true ∧
    (atEdge 0x0724 3 0 0 0).accepts = true ∧ decode (atEdge 0x0724 3 0 0 0).ports.cmd = .ok (.shl 7) ∧
    ∃ t, exec (.shl 7) (atEdge 0x0724 3 0 0 0) = .next t := ⟨rfl, rfl, by decide, rfl, _, rfl⟩

theorem witness_IllegalWordRaisesIllop :
    (atEdge 0x011C 0 0 1 2).ports.rst = false ∧ (atEdge 0x011C 0 0 1 2).resetDone = true ∧
    (atEdge 0x011C 0 0 1 2).accepts = true ∧ legal (atEdge 0x011C 0 0 1 2).ports.cmd = false := by decide

theorem witness_StepRefinesTransaction :
    (atEdge 0x0008 1 2 0 0).resetDone = true ∧ (atEdge 0x0008 1 2 0 0).ports.rst = false := by decide

theorem atEdge_noReset (w : CmdWord) (a b m : Word) (st : Byte) : (atEdge w a b m st).noReset :=
  ⟨rfl, fun _ h => absurd h List.not_mem_nil⟩

theorem atEdge_inv (w : CmdWord) (a b m : Word) : (atEdge w a b m 0).Inv :=
  ⟨(by decide : (0x00 : Byte) &&& 0xFC = 0), fun _ => ⟨⟨.nil, fun _ h => absurd h List.not_mem_nil⟩, fun h => Bool.noConfusion h⟩⟩

theorem witness_RunRefinesTransactions :
    (atEdge 0x003C 0 0 0 3).resetDone = true ∧ (atEdge 0x003C 0 0 0 3).noReset := ⟨rfl, atEdge_noReset _ _ _ _ _⟩

theorem witness_ResponseAfterLatency :
    (atEdge 0x0008 1 2 0 0).Inv ∧ (atEdge 0x0008 1 2 0 0).resetDone = true ∧ (atEdge 0x0008 1 2 0 0).noReset ∧
    (atEdge 0x0008 1 2 0 0).accepts = true := ⟨atEdge_inv _ _ _ _, rfl, atEdge_noReset _ _ _ _ _, by decide⟩

theorem witness_AtMostLatencyResponses :
    (atEdge 0x0008 1 2 0 0).Inv ∧ (atEdge 0x0008 1 2 0 0).resetDone = true := ⟨atEdge_inv _ _ _ _, rfl⟩

/-- A host that holds RDSTAT while `cmd_ready` is 0 for five cycles. -/
def held : State := { atEdge 0x003C 0 0 0 0 with stall := 5, ports := { idlePorts with cmdValid := true, cmd := 0x003C, hold := true } }

theorem held_noReset : held.noReset := ⟨rfl, fun _ h => absurd h List.not_mem_nil⟩

theorem witness_ReadyReturns : held.resetDone = true ∧ held.noReset ∧ held.cmdReady = false :=
  ⟨rfl, held_noReset, by decide⟩

theorem witness_HeldCommandIsAccepted :
    held.resetDone = true ∧ held.noReset ∧ held.ports.cmdValid = true ∧ held.ports.hold = true :=
  ⟨rfl, held_noReset, rfl, rfl⟩

theorem witness_StepKeepsInv :
    ∃ t, (atEdge 0x001D 0 0 1 0).Inv ∧ step (atEdge 0x001D 0 0 1 0) = .next t := ⟨_, atEdge_inv _ _ _ _, rfl⟩

theorem witness_DecodeEncode :
    (Instr.extr 0).wellFormed = true ∧ (Instr.shr 7).wellFormed = true ∧ Instr.hmax.wellFormed = true := by decide

theorem witness_EncodeDecode : decode 0x0702 = .ok (.extr 7) ∧ decode 0x002E = .ok .hmax := ⟨rfl, rfl⟩

theorem witness_LegalIffDecodes : legal 0x0725 = true ∧ legal 0x0825 = false := by decide

/-- EXTR and the shifts at both ends of their range. -/
theorem witness_immediates_in_range : 0 < 8 ∧ 7 < 8 := by decide

theorem witness_LanesAreIsolated :
    isLanewise .sub = true ∧ lane (0x0000000000000100 : Word) 1 = lane (0xFFFFFFFFFFFF01FF : Word) 1 ∧
    lane (0x0000000000000001 : Word) 1 = lane (0 : Word) 1 := by decide

theorem witness_valid_masks :
    validMask 0 = true ∧ validMask 0xFFFFFFFFFFFFFFFF = true ∧ validMask 0xFF00FF0000FF00FF = true := by decide

theorem witness_invalid_masks :
    validMask 0x0000000000000001 = false ∧ validMask 0x7FFFFFFFFFFFFFFF = false ∧
    validMask 0xFFFFFFFF01FFFFFF = false := by decide

theorem witness_MaskProducersGiveMasks :
    producesMask .mchk = true ∧ readsM .mchk = true ∧ validMask (atEdge 0x001D 0 0xFF 0xFF00 0).ports.opm = true ∧
    validMask (atEdge 0x001D 0 0xFF 0xFF00 0).ports.opa = true ∧
    validMask (atEdge 0x001D 0 0xFF 0xFF00 0).ports.opb = true ∧ producesMask .cmpge = true := by decide

theorem witness_SelectByMask :
    validMask (atEdge 0x001C 1 2 0xFF 0).ports.opm = true ∧ validMask (atEdge 0x001C 1 2 1 0).ports.opm = false := by
  decide

theorem witness_MaskCheckReturnsMask :
    validMask (atEdge 0x001D 1 2 0xFF 0).ports.opm = true ∧ validMask (atEdge 0x001D 1 2 0xFE 0).ports.opm = false := by
  decide

theorem witness_MaskReductions :
    validMask (atEdge 0x0028 0 0 0 0).ports.opm = true ∧
    validMask (atEdge 0x0028 0 0 0x0100 0).ports.opm = false := by decide

theorem witness_ReadAndClearStatus :
    (atEdge 0x013D 0 0 0 2).ports.rst = false ∧ (atEdge 0x013D 0 0 0 2).resetDone = true ∧
    (atEdge 0x013D 0 0 0 2).accepts = true ∧ (atEdge 0x013D 0 0 0 2).ports.cmd = 0x013D := by decide

theorem witness_MaskCheckRaisesInvmask :
    (readsM .mall = true ∧ validMask (atEdge 0x0029 0 0 2 0).ports.opm = false) ∧
    (readsM .mall = true ∧ validMask (atEdge 0x0029 0 0 0 0).ports.opm = true) ∧
    (readsM .rdstat = false ∧ Instr.rdstat ≠ .clrstat) := by decide

/-- One state for each clause: nothing accepted, an illegal word, INVMASK, CLRSTAT, another command. -/
theorem witness_StatusBitsAreSticky :
    ((busy idlePorts).resetDone = true ∧ (busy idlePorts).ports.rst = false ∧ (busy idlePorts).accepts = false) ∧
    ((atEdge 0 0 0 0 0).accepts = true ∧ legal (atEdge 0 0 0 0 0).ports.cmd = false) ∧
    ((atEdge 0x001D 0 0 1 0).accepts = true ∧ decoded 0x001D = some .mchk ∧ readsM .mchk = true ∧
      validMask (atEdge 0x001D 0 0 1 0).ports.opm = false) ∧
    ((atEdge 0x003D 0 0 0 3).accepts = true ∧ decoded 0x003D = some .clrstat ∧ readsM .clrstat = false) ∧
    ((atEdge 0x0008 0 0 0 3).accepts = true ∧ decoded 0x0008 = some .add) := by decide

theorem witness_UnreadPortsAreIgnored :
    readsA .bcast = true ∧ readsB .bcast = false ∧ readsM .bcast = false ∧
    (5 : Word) = (atEdge 0x0001 5 6 7 0).ports.opa := by decide

theorem witness_ResultsDependOnOperandsOnly :
    Instr.sel ≠ .rdstat ∧ Instr.sel ≠ .clrstat ∧
    (atEdge 0x001C 1 2 0xFF 0).ports.opa = (atEdge 0x001C 1 2 0xFF 3).ports.opa ∧
    (atEdge 0x001C 1 2 0xFF 0).ports.opb = (atEdge 0x001C 1 2 0xFF 3).ports.opb ∧
    (atEdge 0x001C 1 2 0xFF 0).ports.opm = (atEdge 0x001C 1 2 0xFF 3).ports.opm ∧
    validMask (atEdge 0x001C 1 2 0xFF 0).ports.opm = true := by decide

theorem witness_CleanCommandStaysClean :
    (atEdge 0x001C 1 2 0xFF 0).clean = true ∧ (atEdge 0x001C 1 2 0xFF 0).resetDone = true ∧
    (atEdge 0x001C 1 2 0xFF 0).ports.rst = false ∧ (atEdge 0x001C 1 2 0xFF 0).accepts = true ∧
    decoded (atEdge 0x001C 1 2 0xFF 0).ports.cmd = some .sel ∧
    validMask (atEdge 0x001C 1 2 0xFF 0).ports.opm = true := by decide

end Sys2Proof.Tests
end

section
/-! The values after reset (spec/10_state.md R29) and `cmd_ready` while `rst` = 1 (R111). -/

namespace Sys2Proof.Machine

/-! ### The state after reset, read field by field -/

@[simp] theorem State.reset_readStatus : State.reset.readStatus = 0x00 := rfl

@[simp] theorem State.reset_inFlight : State.reset.inFlight = [] := rfl

@[simp] theorem State.reset_rspValid : State.reset.rspValid = false := rfl

/-! ### The command port under reset -/

/-- `rst` = 1 holds `cmd_ready` at 0, whatever READY_POLICY chooses. -/
theorem State.cmdReady_of_rst {s : State} (hrst : s.ports.rst = true) : s.cmdReady = false := by
  simp [State.cmdReady, hrst]

/-- Settles O1, from the fields of `State.reset` and the gate that `rst` puts on `cmd_ready`. -/
theorem resetValues : Obligations.ResetValues :=
  ⟨State.reset_readStatus, State.reset_inFlight, State.reset_rspValid, fun _ => State.cmdReady_of_rst⟩

end Sys2Proof.Machine
end

section
/-! The ports a command does not read (spec/30_encoding.md R46). -/

namespace Sys2Proof.Machine

/-! ### What `withOperands` leaves alone, and what commutes with it -/

@[simp] theorem State.withOperands_readStatus (s : State) (a b m : Word) :
    (s.withOperands a b m).readStatus = s.readStatus := rfl

@[simp] theorem State.withOperands_opa (s : State) (a b m : Word) : (s.withOperands a b m).ports.opa = a := rfl

@[simp] theorem State.withOperands_opb (s : State) (a b m : Word) : (s.withOperands a b m).ports.opb = b := rfl

@[simp] theorem State.withOperands_opm (s : State) (a b m : Word) : (s.withOperands a b m).ports.opm = m := rfl

/-- A response does not carry what the host drives on the operand ports. -/
theorem complete_withOperands (s : State) (a b m r : Word) :
    (s.withOperands a b m).complete r = .next ((s.respond r .none).withOperands a b m) := rfl

/-- INVMASK draws its R whatever the operand ports hold. -/
theorem raiseInvmask_withOperands (s : State) (a b m : Word) :
    (s.withOperands a b m).raiseInvmask = s.raiseInvmask.withOperands a b m := rfl

/-! ### Which case of `exec_cases` a command takes -/

/-- A command other than CLRSTAT completes when any M it reads is a mask. -/
theorem exec_eq_complete {i : Instr} {s : State} (hc : i ≠ .clrstat)
    (hv : readsM i = true → validMask s.ports.opm = true) :
    exec i s = s.complete (Reference.resultWord i s.readStatus s.ports.opa s.ports.opb s.ports.opm) := by
  rcases exec_cases i s with ⟨-, -, h⟩ | ⟨hr, hinv, -⟩ | ⟨rfl, -⟩
  · exact h
  · simp [hv hr] at hinv
  · exact absurd rfl hc

/-- A command that reads an M that is no mask raises INVMASK. -/
theorem exec_eq_raiseInvmask {i : Instr} {s : State} (hr : readsM i = true) (hinv : validMask s.ports.opm = false) :
    exec i s = .next s.raiseInvmask := by
  rcases exec_cases i s with ⟨-, hv, -⟩ | ⟨-, -, h⟩ | ⟨rfl, -⟩
  · simp [hv hr] at hinv
  · exact h
  · simp [readsM] at hr

/-! ### The result uses only the ports of R47 -/

/-- The result is the same for any two operand triples that agree on the ports the command reads. -/
theorem resultWord_congr {i : Instr} {a b m a' b' m' : Word} (status : Byte)
    (ha : readsA i = true → a' = a) (hb : readsB i = true → b' = b) (hm : readsM i = true → m' = m) :
    Reference.resultWord i status a' b' m' = Reference.resultWord i status a b m := by
  cases i
  case sel => rw [ha rfl, hb rfl, hm rfl]
  case mchk | many | mall | mcount => cases hm rfl; rfl
  case rdstat | clrstat => rfl
  case bcast | extr | not | shl | shr | pcnt | hsum | hmin | hmax => cases ha rfl; rfl
  all_goals
    cases ha rfl
    cases hb rfl
    rfl

/-- Settles O53, by the three ways a command can end: with other values on the unread ports it ends the same way, and
the result is that of the ports it reads. -/
theorem unreadPortsAreIgnored : Obligations.UnreadPortsAreIgnored := by
  intro i s a b m ha hb hm
  rcases exec_cases i s with ⟨hc, hv, h⟩ | ⟨hr, hinv, h⟩ | ⟨rfl, h⟩
  · refine ⟨_, h, ?_⟩
    have hv' : readsM i = true → validMask (s.withOperands a b m).ports.opm = true := fun hr => by
      simpa [hm hr] using hv hr
    rw [exec_eq_complete hc hv', State.withOperands_readStatus, State.withOperands_opa, State.withOperands_opb,
      State.withOperands_opm, resultWord_congr _ ha hb hm, complete_withOperands]
  · refine ⟨_, h, ?_⟩
    have hinv' : validMask (s.withOperands a b m).ports.opm = false := by simpa [hm hr] using hinv
    rw [exec_eq_raiseInvmask hr hinv', raiseInvmask_withOperands]
  · exact ⟨_, h, rfl⟩

end Sys2Proof.Machine
end

section
/-! Lane access: BCAST (spec/40_lane_access.md R54) and EXTR (R55). -/

namespace Sys2Proof.Machine

/-! ### The command word of an immediate -/

/-- A packed command word is the opcode with the immediate at bit 8, the reserved fields 0 (R43). -/
theorem cmdPack_eq_or (imm3 : BitVec 3) (op : BitVec 6) :
    cmdPack imm3 op = op.setWidth 16 ||| (imm3.setWidth 16 <<< 8) := by
  ext j hj
  grind [cmdPack]

/-- An immediate in range is encoded unchanged at bit 8, beside the opcode. -/
theorem encode_eq_or {i : Instr} (hi : immediate i < 8) :
    encode i = (opcode i).setWidth 16 ||| (BitVec.ofNat 16 (immediate i) <<< 8) := by
  have himm : (BitVec.ofNat 3 (immediate i)).setWidth 16 = BitVec.ofNat 16 (immediate i) := by
    apply BitVec.eq_of_toNat_eq
    simp only [BitVec.toNat_setWidth, BitVec.toNat_ofNat]
    omega
  rw [encode, cmdPack_eq_or, himm]

/-! ### Bytes widened to a word -/

/-- `BYTES8(x)` as a multiply: the partial products meet in no lane, so nothing carries. -/
theorem bytes8_eq_mul (x : Byte) : bytes8 x = x.setWidth 64 * 0x0101010101010101 := by
  have hx : x.toNat < 256 := x.isLt
  have hc : (0x0101010101010101 : Word).toNat = 0x0101010101010101 := rfl
  apply BitVec.eq_of_toNat_eq
  rw [word_toNat, BitVec.toNat_mul, BitVec.toNat_setWidth, hc]
  simp only [lane_bytes8, Nat.reduceLT]
  omega

/-- Lane 0 of a zero-extended byte is the byte. -/
theorem lane_zero_setWidth (x : Byte) : lane (x.setWidth 64) 0 = x :=
  (BitVec.extractLsb'_setWidth_of_le (by decide)).trans BitVec.extractLsb'_eq_self

/-- A zero-extended byte leaves bits 63:8 at 0. -/
theorem extractLsb'_high_setWidth (x : Byte) : (x.setWidth 64).extractLsb' 8 56 = 0 := by
  ext j hj
  simp

/-! ### What the two commands answer -/

/-- BCAST completes in every state, with `BYTES8(A[7:0])`. -/
theorem completesWith_bcast (s : State) : completesWith .bcast s (bytes8 (s.ports.opa.extractLsb' 0 8)) := rfl

/-- EXTR k completes in every state, with lane k of A zero-extended. -/
theorem completesWith_extr (k : Nat) (s : State) : completesWith (.extr k) s ((lane s.ports.opa k).setWidth 64) := rfl

/-- Settles O21: the result is `BYTES8(A[7:0])`, read by lanes and as a multiply. -/
theorem broadcastFillsLanes : Obligations.BroadcastFillsLanes :=
  ⟨rfl, fun s => ⟨_, completesWith_bcast s, fun _ hi => lane_bytes8 _ hi, bytes8_eq_mul _⟩⟩

/-- Settles O22: the index fits in IMM3, and the result is a zero-extended byte, held by lane 0 alone. -/
theorem extractReadsLane : Obligations.ExtractReadsLane := fun k hk =>
  ⟨encode_eq_or (i := .extr k) hk,
    fun s => ⟨_, completesWith_extr k s, lane_zero_setWidth _, extractLsb'_high_setWidth _⟩⟩

end Sys2Proof.Machine
end

section
/-! Lane-wise add and subtract (spec/41_add_sub.md R58 to R61), and the isolation of lanes that R57 asks of every
lane-wise operation. -/

namespace Sys2Proof.Machine

/-! ### The lanes of sums and differences -/

/-- A lane of an exact lane-wise result: the integer, stored modulo 256 (R13). -/
theorem lane_lanewiseInt_toNat (f : Int → Int → Int) (a b : Word) {i : Nat} (hi : i < 8) :
    ((lane (lanewiseInt f a b) i).toNat : Int) = f (lane a i).toNat (lane b i).toNat % 256 := by
  rw [lanewiseInt, lane_lanewise _ hi, BitVec.toNat_ofInt]
  exact Int.toNat_of_nonneg (Int.emod_nonneg _ (by decide))

/-- A result that fits in a lane is stored as it is. -/
theorem lane_lanewiseInt_toNat_of_fits {f : Int → Int → Int} {a b : Word} {i : Nat} (hi : i < 8)
    (h0 : 0 ≤ f (lane a i).toNat (lane b i).toNat) (h1 : f (lane a i).toNat (lane b i).toNat < 256) :
    ((lane (lanewiseInt f a b) i).toNat : Int) = f (lane a i).toNat (lane b i).toNat :=
  (lane_lanewiseInt_toNat f a b hi).trans (Int.emod_eq_of_lt h0 h1)

theorem lane_addWord_toNat (a b : Word) {i : Nat} (hi : i < 8) :
    (lane (addWord a b) i).toNat = ((lane a i).toNat + (lane b i).toNat) % 256 := by
  have h : ((lane (addWord a b) i).toNat : Int) = _ := lane_lanewiseInt_toNat _ a b hi
  omega

theorem lane_subWord_toNat (a b : Word) {i : Nat} (hi : i < 8) :
    ((lane (subWord a b) i).toNat : Int) = ((lane a i).toNat - (lane b i).toNat : Int) % 256 :=
  (lane_lanewiseInt_toNat _ a b hi).trans (Int.emod_emod _ _)

/-- The saturated sum fits in a lane: the sum of two lanes is not negative, and the cap is 255. -/
theorem lane_addsWord_toNat (a b : Word) {i : Nat} (hi : i < 8) :
    (lane (addsWord a b) i).toNat = min ((lane a i).toNat + (lane b i).toNat) 255 := by
  have h : ((lane (addsWord a b) i).toNat : Int) = _ :=
    lane_lanewiseInt_toNat_of_fits hi (by omega) (by omega)
  omega

/-- The floored difference fits in a lane: it is at most the lane of A. -/
theorem lane_subsWord_toNat (a b : Word) {i : Nat} (hi : i < 8) :
    ((lane (subsWord a b) i).toNat : Int) = max ((lane a i).toNat - (lane b i).toNat : Int) 0 :=
  lane_lanewiseInt_toNat_of_fits hi (by omega) (by have := (lane a i).isLt; omega)

/-! ### What a lane-wise operation answers -/

/-- A lane-wise operation reads no mask. -/
theorem readsM_of_isLanewise {i : Instr} (hi : isLanewise i = true) : readsM i = false := by
  cases i
  case sel | mchk | many | mall | mcount => cases hi
  all_goals rfl

/-- A lane-wise operation completes in every state. -/
theorem completesWith_of_isLanewise {i : Instr} (s : State) (hi : isLanewise i = true) :
    completesWith i s (Reference.resultWord i s.readStatus s.ports.opa s.ports.opb s.ports.opm) := by
  have hc : i ≠ .clrstat := by
    rintro rfl
    cases hi
  have hm : readsM i = true → validMask s.ports.opm = true := by simp [readsM_of_isLanewise hi]
  exact exec_eq_complete hc hm

/-- Settles O23: ADD is lane-wise, and its lanes are the sums modulo 256. -/
theorem addWrapsPerLane : Obligations.AddWrapsPerLane :=
  ⟨rfl, fun s => ⟨_, completesWith_of_isLanewise s rfl, fun _ hi => lane_addWord_toNat _ _ hi⟩⟩

/-- Settles O24: SUB is lane-wise, and its lanes are the integer differences modulo 256. -/
theorem subWrapsPerLane : Obligations.SubWrapsPerLane :=
  ⟨rfl, fun s => ⟨_, completesWith_of_isLanewise s rfl, fun _ hi => lane_subWord_toNat _ _ hi⟩⟩

/-- Settles O25: ADDS is lane-wise, and its lanes are the sums capped at 255. -/
theorem addsSaturatesPerLane : Obligations.AddsSaturatesPerLane :=
  ⟨rfl, fun s => ⟨_, completesWith_of_isLanewise s rfl, fun _ hi => lane_addsWord_toNat _ _ hi⟩⟩

/-- Settles O26: SUBS is lane-wise, and its lanes are the integer differences floored at 0. -/
theorem subsFloorsPerLane : Obligations.SubsFloorsPerLane :=
  ⟨rfl, fun s => ⟨_, completesWith_of_isLanewise s rfl, fun _ hi => lane_subsWord_toNat _ _ hi⟩⟩

/-! ### Isolation of lanes -/

/-- Lane j of a lane-wise result is fixed by lane j of A and lane j of B: no carry, borrow or shifted bit enters it from
another lane, and neither STATUS nor M has a part in it. -/
theorem lane_resultWord_congr {i : Instr} {a b a' b' : Word} {j : Nat} (hi : isLanewise i = true) (hj : j < 8)
    (ha : lane a j = lane a' j) (hb : lane b j = lane b' j) (status status' : Byte) (m m' : Word) :
    lane (Reference.resultWord i status a b m) j = lane (Reference.resultWord i status' a' b' m') j := by
  cases i
  case bcast | extr | sel | mchk | many | mall | mcount | hsum | hmin | hmax | rdstat | clrstat => cases hi
  case and => simp only [Reference.resultWord, lane_and, ha, hb]
  case or => simp only [Reference.resultWord, lane_or, ha, hb]
  case xor => simp only [Reference.resultWord, lane_xor, ha, hb]
  case not => simp only [Reference.resultWord, lane_not _ hj, ha]
  case add | sub | adds | subs =>
    simp only [Reference.resultWord, addWord, subWord, addsWord, subsWord, lanewiseInt, lane_lanewise _ hj, ha, hb]
  case cmpeq | cmpne | cmplt | cmple | cmpgt | cmpge =>
    simp only [Reference.resultWord, cmpeqWord, cmpneWord, cmpltWord, cmpleWord, cmpgtWord, cmpgeWord, compareWord,
      lane_lanewise _ hj, ha, hb]
  case min | max => simp only [Reference.resultWord, minWord, maxWord, lane_lanewise _ hj, ha, hb]
  case shl | shr | pcnt => simp only [Reference.resultWord, shlWord, shrWord, pcntWord, lane_lanewise _ hj, ha]

/-- Settles O27: a lane-wise operation completes in both states, and each lane of its result is fixed by the lanes of A
and B in that place. -/
theorem lanesAreIsolated : Obligations.LanesAreIsolated := fun _ s s' hi =>
  ⟨_, _, completesWith_of_isLanewise s hi, completesWith_of_isLanewise s' hi,
    fun _ hj ha hb => lane_resultWord_congr hi hj ha hb _ _ _ _⟩

end Sys2Proof.Machine
end

section
/-! Lane-wise unsigned comparisons (spec/42_compare.md R65 to R71). -/

namespace Sys2Proof.Machine

/-! ### The lanes of a comparison -/

/-- A lane of a comparison is all ones when the relation holds between the unsigned lanes, and all zeros otherwise
(R65). -/
theorem lane_compareWord (rel : Nat → Nat → Prop) [DecidableRel rel] (a b : Word) {i : Nat} (hi : i < 8) :
    lane (compareWord (fun x y => decide (rel x y)) a b) i =
      if rel (lane a i).toNat (lane b i).toNat then 0xFF else 0x00 := by
  rw [compareWord, lane_lanewise _ hi]
  simp only [maskByte, decide_eq_true_eq]

/-- Lanes are equal as bytes exactly when they are equal as the integers that CMPEQ compares. -/
theorem lane_cmpeqWord (a b : Word) {i : Nat} (hi : i < 8) :
    lane (cmpeqWord a b) i = if lane a i = lane b i then 0xFF else 0x00 :=
  (lane_compareWord (· = ·) a b hi).trans (if_congr BitVec.toNat_inj rfl rfl)

theorem lane_cmpneWord (a b : Word) {i : Nat} (hi : i < 8) :
    lane (cmpneWord a b) i = if lane a i ≠ lane b i then 0xFF else 0x00 :=
  (lane_compareWord (· ≠ ·) a b hi).trans (if_congr BitVec.toNat_ne_iff_ne rfl rfl)

theorem lane_cmpltWord (a b : Word) {i : Nat} (hi : i < 8) :
    lane (cmpltWord a b) i = if (lane a i).toNat < (lane b i).toNat then 0xFF else 0x00 :=
  lane_compareWord (· < ·) a b hi

theorem lane_cmpleWord (a b : Word) {i : Nat} (hi : i < 8) :
    lane (cmpleWord a b) i = if (lane a i).toNat ≤ (lane b i).toNat then 0xFF else 0x00 :=
  lane_compareWord (· ≤ ·) a b hi

theorem lane_cmpgtWord (a b : Word) {i : Nat} (hi : i < 8) :
    lane (cmpgtWord a b) i = if (lane a i).toNat > (lane b i).toNat then 0xFF else 0x00 :=
  lane_compareWord (· > ·) a b hi

theorem lane_cmpgeWord (a b : Word) {i : Nat} (hi : i < 8) :
    lane (cmpgeWord a b) i = if (lane a i).toNat ≥ (lane b i).toNat then 0xFF else 0x00 :=
  lane_compareWord (· ≥ ·) a b hi

/-! ### What the comparisons answer -/

/-- Settles O31: both commands are lane-wise, and the lanes of their results are the masks of `=` and `≠`. -/
theorem compareForEquality : Obligations.CompareForEquality :=
  ⟨rfl, rfl, fun s => ⟨_, _, completesWith_of_isLanewise s rfl, completesWith_of_isLanewise s rfl,
    fun _ hi => ⟨lane_cmpeqWord _ _ hi, lane_cmpneWord _ _ hi⟩⟩⟩

/-- Settles O32: the four commands are lane-wise, and the lanes of their results are the masks of the unsigned orders. -/
theorem compareForOrder : Obligations.CompareForOrder :=
  ⟨rfl, rfl, rfl, rfl, fun s => ⟨_, _, _, _,
    completesWith_of_isLanewise s rfl, completesWith_of_isLanewise s rfl,
    completesWith_of_isLanewise s rfl, completesWith_of_isLanewise s rfl,
    fun _ hi => ⟨lane_cmpltWord _ _ hi, lane_cmpleWord _ _ hi, lane_cmpgtWord _ _ hi, lane_cmpgeWord _ _ hi⟩⟩⟩

end Sys2Proof.Machine
end

section
/-! Bitwise logic, select and mask check (spec/43_logic_select.md R74 to R79). -/

namespace Sys2Proof.Machine

/-! ### Bitwise operations on mask bytes -/

theorem maskByte_and (p q : Bool) : maskByte p &&& maskByte q = maskByte (p && q) := by
  cases p <;> cases q <;> rfl

theorem maskByte_or (p q : Bool) : maskByte p ||| maskByte q = maskByte (p || q) := by
  cases p <;> cases q <;> rfl

theorem maskByte_xor (p q : Bool) : maskByte p ^^^ maskByte q = maskByte (p ^^ q) := by
  cases p <;> cases q <;> rfl

theorem maskByte_not (p : Bool) : ~~~maskByte p = maskByte (!p) := by
  cases p <;> rfl

/-! ### The truth of a lane -/

/-- A lane of a valid mask is the mask byte of its truth (R22). -/
theorem lane_eq_maskByte {m : Word} (hm : validMask m = true) {i : Nat} (hi : i < 8) :
    lane m i = maskByte (laneTrue m i) := by
  rcases (validMask_iff m).mp hm i hi with h | h
  · rw [laneTrue, h]
    rfl
  · rw [laneTrue, h]
    rfl

/-- A lane that holds a mask byte has the truth it was made from. -/
theorem laneTrue_of_lane_eq {m : Word} {i : Nat} {c : Bool} (h : lane m i = maskByte c) : laneTrue m i = c := by
  rw [laneTrue, h]
  cases c <;> rfl

section
variable {a b : Word} (ha : validMask a = true) (hb : validMask b = true) {i : Nat} (hi : i < 8)
include ha hi

theorem laneTrue_not : laneTrue (~~~a) i = !laneTrue a i :=
  laneTrue_of_lane_eq (by rw [lane_not a hi, lane_eq_maskByte ha hi, maskByte_not])

include hb

theorem laneTrue_and : laneTrue (a &&& b) i = (laneTrue a i && laneTrue b i) :=
  laneTrue_of_lane_eq (by rw [lane_and, lane_eq_maskByte ha hi, lane_eq_maskByte hb hi, maskByte_and])

theorem laneTrue_or : laneTrue (a ||| b) i = (laneTrue a i || laneTrue b i) :=
  laneTrue_of_lane_eq (by rw [lane_or, lane_eq_maskByte ha hi, lane_eq_maskByte hb hi, maskByte_or])

theorem laneTrue_xor : laneTrue (a ^^^ b) i = (laneTrue a i ^^ laneTrue b i) :=
  laneTrue_of_lane_eq (by rw [lane_xor, lane_eq_maskByte ha hi, lane_eq_maskByte hb hi, maskByte_xor])

end

/-! ### Lanes of any words -/

/-- The complement of a lane is its distance to 255, mask or not. -/
theorem lane_not_toNat (a : Word) {i : Nat} (hi : i < 8) : (lane (~~~a) i).toNat = 255 - (lane a i).toNat := by
  rw [lane_not a hi, BitVec.toNat_not]

/-- Where the mask is all ones the lane of A passes and that of B is cleared; where it is all zeros, the reverse. -/
theorem lane_selWord {m : Word} (hm : validMask m = true) (a b : Word) {i : Nat} (hi : i < 8) :
    lane (selWord m a b) i = if lane m i = 0xFF then lane a i else lane b i := by
  have hones (x : Byte) : x &&& 255#8 = x := BitVec.and_allOnes
  rw [selWord, lane_or, lane_and, lane_and, lane_not m hi]
  rcases (validMask_iff m).mp hm i hi with h | h
  · simp [h, hones]
  · simp [h, hones]

/-! ### What the commands that read M answer -/

/-- A command other than CLRSTAT completes when M is a mask, whether it reads M or not. -/
theorem completesWith_of_validMask {i : Instr} {s : State} (hc : i ≠ .clrstat) (hv : validMask s.ports.opm = true) :
    completesWith i s (Reference.resultWord i s.readStatus s.ports.opa s.ports.opb s.ports.opm) :=
  exec_eq_complete hc fun _ => hv

/-- A command that reads an M that is no mask raises INVMASK, in the words of the claims. -/
theorem raisesInvmask_of_not_validMask {i : Instr} {s : State} (hr : readsM i = true)
    (hinv : validMask s.ports.opm = false) : raisesInvmask i s :=
  raisesInvmask_of_next (exec_eq_raiseInvmask hr hinv)

/-- Settles O36: the four commands are lane-wise, so they complete; on valid masks every lane is a mask byte, and the
bitwise operations on mask bytes are the Boolean ones. -/
theorem bitwiseLogic : Obligations.BitwiseLogic :=
  ⟨rfl, rfl, rfl, rfl, fun s =>
    ⟨completesWith_of_isLanewise s rfl, completesWith_of_isLanewise s rfl, completesWith_of_isLanewise s rfl,
      completesWith_of_isLanewise s rfl, fun _ hi => lane_not_toNat _ hi,
      fun ha hb _ hi => ⟨laneTrue_and ha hb hi, laneTrue_or ha hb hi, laneTrue_xor ha hb hi, laneTrue_not ha hi⟩⟩⟩

/-- Settles O37: a valid M lets SEL complete and chooses each lane; an invalid one raises INVMASK. -/
theorem selectByMask : Obligations.SelectByMask :=
  ⟨rfl, fun _ =>
    ⟨fun hv => ⟨_, completesWith_of_validMask (by decide) hv, rfl, fun _ hi => lane_selWord hv _ _ hi⟩,
      raisesInvmask_of_not_validMask rfl⟩⟩

/-- Settles O38: a valid M lets MCHK complete, with M as its result; an invalid one raises INVMASK. -/
theorem maskCheckReturnsMask : Obligations.MaskCheckReturnsMask :=
  ⟨rfl, fun _ => ⟨completesWith_of_validMask (by decide), raisesInvmask_of_not_validMask rfl⟩⟩

end Sys2Proof.Machine
end

section
/-! Lane-wise unsigned minimum and maximum (spec/44_minmax.md R80, R81). -/

namespace Sys2Proof.Machine

/-! ### The lanes of minima and maxima -/

/-- The smaller of two lanes fits in a lane, so storing it loses nothing. -/
theorem lane_minWord_toNat (a b : Word) {i : Nat} (hi : i < 8) :
    (lane (minWord a b) i).toNat = min (lane a i).toNat (lane b i).toNat := by
  rw [minWord, lane_lanewise _ hi, BitVec.toNat_ofNat]
  exact Nat.mod_eq_of_lt (min_lt_of_left_lt (lane a i).isLt)

/-- The larger of two lanes fits in a lane, so storing it loses nothing. -/
theorem lane_maxWord_toNat (a b : Word) {i : Nat} (hi : i < 8) :
    (lane (maxWord a b) i).toNat = max (lane a i).toNat (lane b i).toNat := by
  rw [maxWord, lane_lanewise _ hi, BitVec.toNat_ofNat]
  exact Nat.mod_eq_of_lt (max_lt (lane a i).isLt (lane b i).isLt)

/-- Settles O39: MIN and MAX are lane-wise, so they complete in every state, and the lanes of their results are the
unsigned minima and maxima. -/
theorem minMaxPerLane : Obligations.MinMaxPerLane :=
  ⟨rfl, rfl, fun s => ⟨_, _, completesWith_of_isLanewise s rfl, completesWith_of_isLanewise s rfl,
    fun _ hi => ⟨lane_minWord_toNat _ _ hi, lane_maxWord_toNat _ _ hi⟩⟩⟩

end Sys2Proof.Machine
end

section
/-! Lane-wise logical shifts and population count (spec/45_shift_count.md R83 to R85). -/

namespace Sys2Proof.Machine

/-! ### The lanes of a shifted word -/

/-- A lane times 2ⁿ, stored modulo 256, is the lane shifted left as a byte, whatever n is. -/
theorem lane_shlWord (n : Nat) (a : Word) {i : Nat} (hi : i < 8) : lane (shlWord n a) i = lane a i <<< n := by
  rw [shlWord, lane_lanewise _ hi]
  apply BitVec.eq_of_toNat_eq
  rw [BitVec.toNat_ofNat, BitVec.toNat_shiftLeft, Nat.shiftLeft_eq, Nat.mod_mod]

/-- A lane divided by 2ⁿ is the lane shifted right as a byte, whatever n is. -/
theorem lane_shrWord (n : Nat) (a : Word) {i : Nat} (hi : i < 8) : lane (shrWord n a) i = lane a i >>> n := by
  rw [shrWord, lane_lanewise _ hi, ← Nat.shiftRight_eq_div_pow, ← BitVec.toNat_ushiftRight, BitVec.ofNat_toNat,
    BitVec.setWidth_eq]

/-! ### Counting one bits -/

/-- The elements a test keeps are counted by adding up its answers as numbers. -/
theorem length_filter_eq_sum_toNat {α : Type} (p : α → Bool) (l : List α) :
    (l.filter p).length = (l.map fun x => (p x).toNat).sum := by
  induction l with
  | nil => rfl
  | cons x l ih => cases hx : p x <;> simp [hx, ih, Nat.add_comm]

theorem popcount_le (x : Byte) : popcount x ≤ 8 := List.length_filter_le _ _

/-- The one bits of lane i are those of bits 8i to 8i+7 of the word. -/
theorem popcount_lane (a : Word) (i : Nat) :
    popcount (lane a i) = ((List.range 8).map fun j => (a.getLsbD (8 * i + j)).toNat).sum := by
  rw [popcount, length_filter_eq_sum_toNat]
  refine congrArg List.sum (List.map_congr_left fun j hj => ?_)
  rw [lane_getLsbD, decide_eq_true (List.mem_range.mp hj), Bool.true_and]

/-- A count of at most 8 fits in a lane, so storing it loses nothing. -/
theorem lane_pcntWord_toNat (a : Word) {i : Nat} (hi : i < 8) :
    (lane (pcntWord a) i).toNat = popcount (lane a i) := by
  have hle : popcount (lane a i) ≤ 8 := popcount_le _
  rw [pcntWord, lane_lanewise _ hi, BitVec.toNat_ofNat]
  exact Nat.mod_eq_of_lt (by omega)

/-! ### What the commands answer -/

/-- Settles O41: the amount fits in IMM3, both commands are lane-wise, and the lanes of their results are the lanes of A
shifted as bytes. -/
theorem shiftsPerLane : Obligations.ShiftsPerLane := fun n hn =>
  ⟨encode_eq_or (i := .shl n) hn, encode_eq_or (i := .shr n) hn, fun s =>
    ⟨_, _, completesWith_of_isLanewise s rfl, completesWith_of_isLanewise s rfl,
      fun _ hi => ⟨lane_shlWord n _ hi, lane_shrWord n _ hi⟩⟩⟩

/-- Settles O42: PCNT is lane-wise, and the count each lane holds is that of the word's bits in that place. -/
theorem populationCountPerLane : Obligations.PopulationCountPerLane :=
  ⟨rfl, fun s => ⟨_, completesWith_of_isLanewise s rfl,
    fun _ hi => (lane_pcntWord_toNat _ hi).trans (popcount_lane _ _)⟩⟩

end Sys2Proof.Machine
end

section
/-! Mask and horizontal reductions (spec/46_reductions.md R87 to R92). -/

namespace Sys2Proof.Machine

/-! ### Mask reductions -/

theorem laneTrue_iff (m : Word) (i : Nat) : laneTrue m i = true ↔ lane m i = 0xFF := beq_iff_eq

/-- A condition as a scalar result: 0 or 1. -/
theorem flagWord_cases (c : Bool) : (if c then 1 else 0 : Word) = 0 ∨ (if c then 1 else 0 : Word) = 1 := by
  cases c <;> decide

/-- The scalar result 1 says that the condition holds. -/
theorem flagWord_eq_one_iff (c : Bool) : (if c then 1 else 0 : Word) = 1 ↔ c = true := by
  cases c <;> decide

theorem manyWord_eq_one_iff (m : Word) : manyWord m = 1 ↔ ∃ i < 8, lane m i = 0xFF := by
  rw [manyWord, flagWord_eq_one_iff, List.any_eq_true]
  simp only [List.mem_range, laneTrue_iff]

theorem mallWord_eq_one_iff (m : Word) : mallWord m = 1 ↔ ∀ i < 8, lane m i = 0xFF := by
  rw [mallWord, flagWord_eq_one_iff, List.all_eq_true]
  simp only [List.mem_range, laneTrue_iff]

theorem trueLanes_le (m : Word) : trueLanes m ≤ 8 := List.length_filter_le _ _

/-- Each lane adds to the count the number its truth stands for. -/
theorem trueLanes_eq_sum (m : Word) :
    trueLanes m = ((List.range 8).map fun i => if lane m i = 0xFF then 1 else 0).sum := by
  rw [trueLanes, length_filter_eq_sum_toNat]
  refine congrArg List.sum (List.map_congr_left fun i _ => ?_)
  simp only [← laneTrue_iff]
  cases laneTrue m i <;> rfl

/-- A count of at most 8 fits in a word, so storing it loses nothing. -/
theorem mcountWord_toNat (m : Word) : (mcountWord m).toNat = trueLanes m := by
  have hle : trueLanes m ≤ 8 := trueLanes_le m
  rw [mcountWord, BitVec.toNat_ofNat]
  exact Nat.mod_eq_of_lt (by omega)

/-! ### The lane values -/

theorem laneValues_length (a : Word) : (laneValues a).length = 8 := rfl

theorem mem_laneValues {a : Word} {v : Nat} : v ∈ laneValues a ↔ ∃ i < 8, (lane a i).toNat = v := by
  simp [laneValues]

theorem lane_toNat_mem_laneValues (a : Word) {i : Nat} (hi : i < 8) : (lane a i).toNat ∈ laneValues a :=
  mem_laneValues.mpr ⟨i, hi, rfl⟩

/-- A lane value as a scalar result is some lane, zero-extended. -/
theorem exists_lane_of_mem_laneValues {a : Word} {v : Nat} (hv : v ∈ laneValues a) :
    ∃ i < 8, BitVec.ofNat 64 v = (lane a i).setWidth 64 := by
  obtain ⟨i, hi, rfl⟩ := mem_laneValues.mp hv
  exact ⟨i, hi, BitVec.ofNat_toNat _ _⟩

/-- A lane value fits in a word, so storing it loses nothing. -/
theorem ofNat_toNat_of_mem_laneValues {a : Word} {v : Nat} (hv : v ∈ laneValues a) :
    (BitVec.ofNat 64 v).toNat = v := by
  obtain ⟨i, -, rfl⟩ := mem_laneValues.mp hv
  have hlt : (lane a i).toNat < 256 := (lane a i).isLt
  rw [BitVec.toNat_ofNat]
  exact Nat.mod_eq_of_lt (by omega)

theorem laneValues_sum (a : Word) : (laneValues a).sum =
    (lane a 0).toNat + (lane a 1).toNat + (lane a 2).toNat + (lane a 3).toNat +
    (lane a 4).toNat + (lane a 5).toNat + (lane a 6).toNat + (lane a 7).toNat := by
  simp [laneValues, List.range_succ, Nat.add_assoc]

/-- Eight lanes of at most 255 each. -/
theorem laneValues_sum_le (a : Word) : (laneValues a).sum ≤ 2040 := by
  have hle : ∀ v ∈ laneValues a, v ≤ 255 := fun v hv => by
    obtain ⟨i, -, rfl⟩ := mem_laneValues.mp hv
    exact Nat.le_of_lt_succ (lane a i).isLt
  calc (laneValues a).sum ≤ (laneValues a).length • 255 := List.sum_le_card_nsmul _ _ hle
    _ = 2040 := by rw [laneValues_length, smul_eq_mul]

/-- A sum of at most 2040 fits in a word, so storing it loses nothing. -/
theorem hsumWord_toNat (a : Word) : (hsumWord a).toNat = (laneValues a).sum := by
  have hle : (laneValues a).sum ≤ 2040 := laneValues_sum_le a
  rw [hsumWord, BitVec.toNat_ofNat]
  exact Nat.mod_eq_of_lt (by omega)

/-! ### The least and the greatest lane -/

/-- Folding `min` over a list from one of its elements gives the least element. -/
theorem foldl_min_isLeast {α : Type} [LinearOrder α] {x : α} {l : List α} (hx : x ∈ l) :
    l.foldl min x ∈ l ∧ ∀ v ∈ l, l.foldl min x ≤ v := by
  obtain ⟨hmem, hle⟩ := List.min?_eq_some_iff.mp (List.min?_cons' (x := x) (xs := l))
  refine ⟨?_, fun v hv => hle v (List.mem_cons_of_mem x hv)⟩
  rcases List.mem_cons.mp hmem with h | h
  · exact h.symm ▸ hx
  · exact h

/-- Folding `max` over a list from one of its elements gives the greatest element: the least in the dual order. -/
theorem foldl_max_isGreatest {α : Type} [LinearOrder α] {x : α} {l : List α} (hx : x ∈ l) :
    l.foldl max x ∈ l ∧ ∀ v ∈ l, v ≤ l.foldl max x :=
  foldl_min_isLeast (α := αᵒᵈ) hx

/-- HMIN returns a lane that no lane is below. -/
theorem hminWord_spec (a : Word) :
    (∃ i < 8, hminWord a = (lane a i).setWidth 64) ∧ ∀ i < 8, (hminWord a).toNat ≤ (lane a i).toNat := by
  obtain ⟨hmem, hle⟩ := foldl_min_isLeast (lane_toNat_mem_laneValues a (i := 0) (by decide))
  refine ⟨exists_lane_of_mem_laneValues hmem, fun i hi => ?_⟩
  rw [hminWord, ofNat_toNat_of_mem_laneValues hmem]
  exact hle _ (lane_toNat_mem_laneValues a hi)

/-- HMAX returns a lane that no lane is above. -/
theorem hmaxWord_spec (a : Word) :
    (∃ i < 8, hmaxWord a = (lane a i).setWidth 64) ∧ ∀ i < 8, (lane a i).toNat ≤ (hmaxWord a).toNat := by
  obtain ⟨hmem, hle⟩ := foldl_max_isGreatest (lane_toNat_mem_laneValues a (i := 0) (by decide))
  refine ⟨exists_lane_of_mem_laneValues hmem, fun i hi => ?_⟩
  rw [hmaxWord, ofNat_toNat_of_mem_laneValues hmem]
  exact hle _ (lane_toNat_mem_laneValues a hi)

/-! ### What the commands answer -/

theorem completesWith_hsum (s : State) : completesWith .hsum s (hsumWord s.ports.opa) := rfl

theorem completesWith_hmin (s : State) : completesWith .hmin s (hminWord s.ports.opa) := rfl

theorem completesWith_hmax (s : State) : completesWith .hmax s (hmaxWord s.ports.opa) := rfl

/-- Settles O45: a valid M lets the three commands complete, two with a condition as 0 or 1 and one with the count; an
invalid one raises INVMASK. -/
theorem maskReductions : Obligations.MaskReductions :=
  ⟨rfl, rfl, rfl, fun s =>
    ⟨fun hv => ⟨manyWord s.ports.opm, mallWord s.ports.opm, mcountWord s.ports.opm,
      completesWith_of_validMask (by decide) hv, completesWith_of_validMask (by decide) hv,
      completesWith_of_validMask (by decide) hv,
      flagWord_cases _, manyWord_eq_one_iff _, flagWord_cases _, mallWord_eq_one_iff _,
      (mcountWord_toNat _).trans (trueLanes_eq_sum _)⟩,
    fun hinv => ⟨raisesInvmask_of_not_validMask rfl hinv, raisesInvmask_of_not_validMask rfl hinv,
      raisesInvmask_of_not_validMask rfl hinv⟩⟩⟩

/-- Settles O46: the sum of the lanes is at most 2040, so the word holds it exactly. -/
theorem horizontalSumIsExact : Obligations.HorizontalSumIsExact :=
  ⟨rfl, fun s => ⟨_, completesWith_hsum s, (hsumWord_toNat _).trans (laneValues_sum _),
    (hsumWord_toNat _).trans_le (laneValues_sum_le _)⟩⟩

/-- Settles O47: folding from lane 0 gives an extremal lane, and a lane fits in a word. -/
theorem horizontalMinMax : Obligations.HorizontalMinMax :=
  ⟨rfl, rfl, fun s =>
    have ⟨hminLane, hminLe⟩ := hminWord_spec s.ports.opa
    have ⟨hmaxLane, hmaxLe⟩ := hmaxWord_spec s.ports.opa
    ⟨_, _, completesWith_hmin s, completesWith_hmax s, hminLane, hminLe, hmaxLane, hmaxLe⟩⟩

end Sys2Proof.Machine
end

section
/-! The status commands RDSTAT (spec/47_status.md R94) and CLRSTAT (R95). -/

namespace Sys2Proof.Machine

/-- Zero-extending STATUS keeps its value, and its two bits hold at most 3. -/
theorem statusWord_toNat_le (s : State) : (statusWord s).toNat ≤ 3 := by
  rw [statusWord, BitVec.toNat_setWidth_of_le (by decide)]
  exact readStatus_le s

/-- RDSTAT completes in every state, with STATUS zero-extended. -/
theorem completesWith_rdstat (s : State) : completesWith .rdstat s (statusWord s) := rfl

/-- CLRSTAT answers STATUS as it was before the clear, and writes STATUS whole. -/
theorem exec_clrstat (s : State) :
    exec .clrstat s = .next ({ s with status := 0x00 }.respond (statusWord s) .none) := rfl

/-- CLRSTAT's opcode with a nonzero IMM3 is illegal: CLRSTAT does not use IMM3. -/
theorem decode_clrstat_imm3 : decode 0x013D = .error .imm3Nonzero := rfl

/-- An edge that accepts an illegal word raises ILLOP and goes on. -/
theorem step_accept_illegal {s : State} {e : Illegal} (hrst : s.ports.rst = false) (hdone : s.resetDone = true)
    (hacc : s.accepts = true) (hd : decode s.ports.cmd = .error e) : step s = .next s.raiseIllop.acceptEdge :=
  (step_accept hrst hdone hacc).trans (commandEdge_illegal hd)

/-- Settles O50: CLRSTAT is its answer and a write of 0, and the word with IMM3 = 1 in its place raises ILLOP, which
sets STATUS[0]; the rest of the edge keeps STATUS. -/
theorem readAndClearStatus : Obligations.ReadAndClearStatus := by
  refine ⟨rfl, fun s => ⟨exec_clrstat s, statusWord_toNat_le s⟩, fun s hrst hdone hacc hcmd => ?_⟩
  have hd : decode s.ports.cmd = .error .imm3Nonzero := by rw [hcmd, decode_clrstat_imm3]
  refine ⟨_, step_accept_illegal hrst hdone hacc hd, ?_⟩
  rw [State.acceptEdge_readStatus, State.raiseIllop_readStatus, illopBit]

/-- Settles O49: RDSTAT's answer is STATUS zero-extended, and STATUS has two bits. -/
theorem readStatus : Obligations.ReadStatus :=
  ⟨rfl, fun s => ⟨completesWith_rdstat s, statusWord_toNat_le s⟩⟩

end Sys2Proof.Machine
end

section
/-! A word that fits no match/mask row does not decode (spec/30_encoding.md R48, R50). -/

namespace Sys2Proof

/-- A word whose reserved fields are 0 is its immediate and its opcode packed (R43). -/
theorem cmdPack_fields {w : CmdWord} (ha : cmdRsva w = 0) (hb : cmdRsvb w = 0) :
    cmdPack (cmdImm3 w) (cmdOp w) = w := by
  have hw : cmdRsvb w ++ cmdImm3 w ++ cmdRsva w ++ cmdOp w = w := by
    ext j hj
    grind [cmdOp, cmdRsva, cmdImm3, cmdRsvb]
  rwa [ha, hb] at hw

/-- What an opcode selects carries that opcode; its immediate is IMM3 where it uses IMM3, and 0 elsewhere. -/
theorem opcodeMap_eq_some {op imm3 : Nat} {i : Instr} {uses : Bool} (h : opcodeMap op imm3 = some (i, uses)) :
    (opcode i).toNat = op ∧ immediate i = if uses then imm3 else 0 := by
  unfold opcodeMap at h
  split at h <;> cases h <;> exact ⟨rfl, rfl⟩

/-- A word that decodes is the word of the instruction it decodes to, whose immediate is IMM3. -/
theorem encode_of_decode {w : CmdWord} {i : Instr} (h : decode w = .ok i) : encode i = w ∧ immediate i < 8 := by
  unfold decode at h
  split at h
  · cases h
  · next j uses hmap =>
    split_ifs at h with ha hb hm
    cases h
    obtain ⟨hop, himm⟩ := opcodeMap_eq_some hmap
    have himm3 : immediate i = (cmdImm3 w).toNat := by
      cases uses
      · have h0 : cmdImm3 w = 0 := by simpa using hm
        rw [himm, h0]
        rfl
      · exact himm
    refine ⟨?_, himm3 ▸ (cmdImm3 w).isLt⟩
    rw [encode, himm3, BitVec.ofNat_toNat, BitVec.setWidth_eq, BitVec.eq_of_toNat_eq hop]
    exact cmdPack_fields (not_not.mp ha) (not_not.mp hb)

/-- Every instruction whose immediate fits IMM3 has a row of R48 that its word fits. -/
theorem legal_encode {i : Instr} (hi : immediate i < 8) : legal (encode i) = true := by
  cases i
  case extr n | shl n | shr n =>
    simp only [immediate] at hi
    interval_cases n <;> rfl
  all_goals rfl

/-- The decoder answers an illegal word with the reason it is illegal. -/
theorem decode_of_not_legal {w : CmdWord} (hw : legal w = false) : ∃ e, decode w = .error e := by
  cases hd : decode w with
  | error e => exact ⟨e, rfl⟩
  | ok i =>
    obtain ⟨rfl, hi⟩ := encode_of_decode hd
    simp [legal_encode hi] at hw

end Sys2Proof
end

section
/-! The two exceptions and STATUS (spec/60_exceptions.md R98 to R100, R102). -/

namespace Sys2Proof.Machine

/-! ### ILLOP -/

/-- ILLOP adds one response, R = 0 with EXC = 1. -/
@[simp] theorem State.raiseIllop_outstanding (s : State) : s.raiseIllop.outstanding = s.outstanding ++ [(0, 1)] := by
  simp [State.outstanding, onPort, excCode]

/-- An edge that accepts an illegal word leaves the same state whatever the operand ports hold: they are not examined,
and after the edge the host drives others. -/
theorem raiseIllop_acceptEdge_withOperands (s : State) (a b m : Word) :
    (s.withOperands a b m).raiseIllop.acceptEdge = s.raiseIllop.acceptEdge := rfl

/-- Settles O7: the word does not decode, so both edges raise ILLOP, and the rest of the edge keeps STATUS and the
responses. -/
theorem illegalWordRaisesIllop : Obligations.IllegalWordRaisesIllop := by
  intro s a b m hrst hdone hacc hill
  obtain ⟨e, hd⟩ := decode_of_not_legal hill
  refine ⟨s.raiseIllop.acceptEdge, step_accept_illegal hrst hdone hacc hd, ?_, ?_, ?_⟩
  · rw [← raiseIllop_acceptEdge_withOperands s a b m]
    exact step_accept_illegal (s := s.withOperands a b m) hrst hdone hacc hd
  · rw [State.acceptEdge_readStatus, State.raiseIllop_readStatus, illopBit]
  · rw [acceptEdge_keeps_responses, State.raiseIllop_outstanding]

/-! ### INVMASK -/

/-- The five commands that read M (R99). -/
theorem readsM_iff (i : Instr) :
    readsM i = true ↔ i = .sel ∨ i = .mchk ∨ i = .many ∨ i = .mall ∨ i = .mcount := by
  constructor
  · intro h
    cases i
    case sel | mchk | many | mall | mcount => simp
    all_goals cases h
  · rintro (rfl | rfl | rfl | rfl | rfl) <;> rfl

/-- Settles O51: a command that reads M raises INVMASK or completes as M is invalid or valid; one that does not read M
has no mask to fail on. -/
theorem maskCheckRaisesInvmask : Obligations.MaskCheckRaisesInvmask := by
  refine ⟨readsM_iff, fun i s => ⟨raisesInvmask_of_not_validMask, fun hr hv => ?_, fun hr hc => ?_⟩⟩
  · have hc : i ≠ .clrstat := by
      rintro rfl
      cases hr
    exact ⟨_, completesWith_of_validMask hc hv⟩
  · exact ⟨_, exec_eq_complete hc (by simp [hr])⟩

/-! ### STATUS -/

/-- STATUS after an illegal word. -/
theorem transact_status_of_error {cmd : CmdWord} {e : Illegal} (h : decode cmd = .error e) (st : Byte)
    (a b m inv : Word) : (Reference.transact st cmd a b m inv).status = st ||| illopBit := by
  rw [Reference.transact, h]

/-- STATUS after a legal command. -/
theorem transact_status_of_ok {cmd : CmdWord} {i : Instr} (h : decode cmd = .ok i) (st : Byte) (a b m inv : Word) :
    (Reference.transact st cmd a b m inv).status =
      if readsM i = true ∧ validMask m = false then st ||| invmaskBit else if i = .clrstat then 0x00 else st := by
  simp only [Reference.transact, h, Bool.and_eq_true, Bool.not_eq_true']
  split <;> rfl

/-- Settles O52: an edge that accepts nothing keeps STATUS, and an accepted command does to STATUS what the
transaction-level function says. -/
theorem statusBitsAreSticky : Obligations.StatusBitsAreSticky := by
  intro s hdone hrst
  cases hacc : s.accepts
  case false =>
    exact ⟨s.waitEdge, step_wait hrst hdone hacc, fun _ => s.waitEdge_readStatus, nofun, nofun⟩
  case true =>
    obtain ⟨t, ht, hst, -⟩ := commandEdge_transacts s
    refine ⟨t.acceptEdge, (step_accept hrst hdone hacc).trans ht, nofun, fun _ hill => ?_, fun i _ hd => ?_⟩
    · obtain ⟨e, hd⟩ := decode_of_not_legal hill
      rw [State.acceptEdge_readStatus, hst, transact_status_of_error hd, illopBit]
    · rw [State.acceptEdge_readStatus, hst, transact_status_of_ok hd, invmaskBit]

end Sys2Proof.Machine
end

section
/-! One edge against the transaction-level unit (spec/10_state.md R26 to R28; 70_reset_and_hazards.md R111 to R119). -/

namespace Sys2Proof.Machine

/-! ### The responses of a pipeline -/

/-- An edge moves the oldest response to the port, or none: together they stay what they were, in order. -/
theorem due_append_still (l : List InFlight) :
    (dueResponse l).toList.map onPort ++ (stillInFlight l).map (fun p => onPort p.rsp) = l.map fun p => onPort p.rsp := by
  rcases due_cases l with ⟨p, rest, rfl, -, hd, hs⟩ | ⟨-, hd, hs⟩
  · rw [hd, hs, map_ageInFlight_onPort]
    rfl
  · rw [hd, hs, map_ageInFlight_onPort]
    rfl

/-- What the clock puts on the response port is the response due. -/
theorem clock_presented (s : State) : s.clock.presented = (dueResponse s.inFlight).toList.map onPort := by
  rw [State.presented, State.clock_rspValid, State.clock_rspR, State.clock_rspExc]
  cases dueResponse s.inFlight <;> rfl

theorem acceptEdge_presented (s : State) : s.acceptEdge.presented = (dueResponse s.inFlight).toList.map onPort :=
  clock_presented s

/-- A presented response is what the response port carries. -/
theorem presented_of_rspValid {s : State} (hv : s.rspValid = true) : s.presented = [(s.rspR, s.rspExc)] := by
  rw [State.presented, hv]

/-! ### What a wait edge leaves alone -/

@[simp] theorem State.waitEdge_status (s : State) : s.waitEdge.status = s.status := by
  rcases waitEdge_cases s with h | h <;> rw [h] <;> rfl

@[simp] theorem State.waitEdge_inFlight (s : State) : s.waitEdge.inFlight = stillInFlight s.inFlight := by
  rcases waitEdge_cases s with h | h <;> rw [h] <;> rfl

@[simp] theorem State.waitEdge_stall (s : State) : s.waitEdge.stall = nextStall s.stall s.draws := by
  rcases waitEdge_cases s with h | h <;> rw [h] <;> rfl

theorem waitEdge_presented (s : State) : s.waitEdge.presented = (dueResponse s.inFlight).toList.map onPort := by
  rcases waitEdge_cases s with h | h <;> rw [h]
  · exact clock_presented s
  · exact clock_presented s

/-- A host that holds its command keeps driving it over a wait edge. -/
theorem waitEdge_of_held {s : State} (hv : s.ports.cmdValid = true) (hh : s.ports.hold = true) :
    s.waitEdge = s.clock := by
  simp [State.waitEdge, hv, hh]

/-- A host that holds no command goes on over a wait edge. -/
theorem waitEdge_of_not_held {s : State} (h : s.ports.cmdValid = false ∨ s.ports.hold = false) :
    s.waitEdge = s.clock.advanceHost := by
  rcases h with h | h <;> simp [State.waitEdge, h]

/-! ### An edge without reset -/

/-- The response of an accepted command as it joins the pipeline. -/
def newInFlight (st : Byte) (c : Accepted) : InFlight :=
  { wait := Config.latencyLessOne, rsp := (transactOne st c).rsp }

/-- What joins the pipeline at this edge: the response to the accepted command, if there is one. -/
def State.answers (s : State) : List InFlight := s.taken.map (newInFlight s.readStatus)

/-- What an edge without reset does to the unit, in terms of the transaction-level unit. -/
structure EdgeEffect (s u : State) : Prop where
  readStatus : u.readStatus = transactStatus s.readStatus s.taken
  inFlight : u.inFlight = stillInFlight (s.inFlight ++ s.answers)
  presented : u.presented = (dueResponse (s.inFlight ++ s.answers)).toList.map onPort
  resetDone : u.resetDone = true
  stall : ∀ k, s.stall = k + 1 → u.stall = k
  reserved : s.status &&& 0xFC = 0 → u.status &&& 0xFC = 0

theorem taken_of_not_accepts {s : State} (h : s.accepts = false) : s.taken = [] := by
  simp [State.taken, h]

theorem answers_of_not_accepts {s : State} (h : s.accepts = false) : s.answers = [] := by
  rw [State.answers, taken_of_not_accepts h, List.map_nil]

/-- An edge takes one command when it accepts. -/
theorem taken_of_accepts {s : State} (h : s.accepts = true) : s.taken =
    [{ cmd := s.ports.cmd, a := s.ports.opa, b := s.ports.opb, m := s.ports.opm,
       inv := Config.invmaskResult s.draws }] := by
  simp [State.taken, h]

/-- A stalled unit accepts nothing. -/
theorem not_accepts_of_stall {s : State} {k : Nat} (h : s.stall = k + 1) : s.accepts = false := by
  simp [State.accepts, State.cmdReady, h]

/-- Every edge without reset has the effect of the transaction-level unit on the command it accepts, if any. -/
theorem step_edgeEffect {s : State} (hdone : s.resetDone = true) (hrst : s.ports.rst = false) :
    ∃ u, step s = .next u ∧ EdgeEffect s u := by
  cases hacc : s.accepts
  case false =>
    refine ⟨s.waitEdge, step_wait hrst hdone hacc, ?_⟩
    constructor
    case readStatus => rw [taken_of_not_accepts hacc, State.waitEdge_readStatus, transactStatus]
    case inFlight => rw [answers_of_not_accepts hacc, List.append_nil, State.waitEdge_inFlight]
    case presented => rw [answers_of_not_accepts hacc, List.append_nil, waitEdge_presented]
    case resetDone => rw [State.waitEdge_resetDone, hdone]
    case stall =>
      intro k hk
      rw [State.waitEdge_stall, hk, nextStall_succ]
    case reserved => exact fun h => (congrArg (· &&& 0xFC) s.waitEdge_status).trans h
  case true =>
    obtain ⟨t, ht, hst, hl, hd, -, -, -, hz⟩ := commandEdge_transacts s
    have hl' : t.inFlight = s.inFlight ++ s.answers := by rw [hl, State.answers, taken_of_accepts hacc]; rfl
    refine ⟨t.acceptEdge, (step_accept hrst hdone hacc).trans ht, ?_⟩
    constructor
    case readStatus =>
      rw [State.acceptEdge_readStatus, hst, taken_of_accepts hacc]
      rfl
    case inFlight => rw [State.acceptEdge_inFlight, hl']
    case presented => rw [acceptEdge_presented, hl']
    case resetDone => rw [State.acceptEdge_resetDone, hd, hdone]
    case stall =>
      intro k hk
      rw [not_accepts_of_stall hk] at hacc
      cases hacc
    case reserved => exact hz

/-- The effect of an edge, of the state that it is known to answer. -/
theorem edgeEffect_of_step {s u : State} (hdone : s.resetDone = true) (hrst : s.ports.rst = false)
    (h : step s = .next u) : EdgeEffect s u := by
  obtain ⟨v, hv, he⟩ := step_edgeEffect hdone hrst
  cases h.symm.trans hv
  exact he

/-- The transaction-level responses to the command of this edge are those that join the pipeline. -/
theorem answers_onPort (s : State) :
    s.answers.map (fun p => onPort p.rsp) = transactResponses s.readStatus s.taken := by
  cases hacc : s.accepts
  · rw [answers_of_not_accepts hacc, taken_of_not_accepts hacc]
    rfl
  · rw [State.answers, taken_of_accepts hacc]
    rfl

/-- Settles O8: the effect of an edge, with the responses read in order. -/
theorem stepRefinesTransaction : Obligations.StepRefinesTransaction := by
  intro s hdone hrst
  obtain ⟨u, hu, he⟩ := step_edgeEffect hdone hrst
  refine ⟨u, hu, he.resetDone, he.readStatus, ?_⟩
  rw [State.outstanding, he.presented, he.inFlight, due_append_still, List.map_append, answers_onPort]
  rfl

/-! ### Every kind of edge -/

/-- Settles O5: an edge with reset, before the first reset or without a command is a next state by itself, and a
command has an effect. -/
theorem stepAlwaysAnswersNext : Obligations.StepAlwaysAnswersNext := by
  intro s
  rcases step_cases s with ⟨-, h⟩ | ⟨-, -, h⟩ | ⟨-, -, -, h⟩ | ⟨-, -, -, h⟩
  · exact ⟨_, h⟩
  · exact ⟨_, h⟩
  · obtain ⟨t, ht, -⟩ := commandEdge_transacts s
    exact ⟨_, h.trans ht⟩
  · exact ⟨_, h⟩

/-- Settles O2, from the fields of the state after a reset edge. -/
theorem resetEdgeClearsUnit : Obligations.ResetEdgeClearsUnit := by
  intro s hrst
  have hacc : s.accepts = false := by simp [State.accepts, hrst]
  exact ⟨State.cmdReady_of_rst hrst, hacc, s.resetEdge, if_pos hrst, by simp [State.readStatus], rfl, rfl⟩

/-- Settles O3: a reset edge sets the flag, and every other kind of edge keeps it. -/
theorem onlyResetStartsUnit : Obligations.OnlyResetStartsUnit := by
  intro s t ht
  rcases step_cases s with ⟨hr, h⟩ | ⟨hr, hd, h⟩ | ⟨hr, hd, -, -⟩ | ⟨hr, hd, -, -⟩
  · cases ht.symm.trans h
    simp [hr]
  · cases ht.symm.trans h
    simp [hr]
  · simp [hd, (edgeEffect_of_step hd hr ht).resetDone]
  · simp [hd, (edgeEffect_of_step hd hr ht).resetDone]

/-- Settles O6: what `exec` answers goes on as the rest of the accepting edge, which keeps STATUS, the reset flag and
the responses, and lets the host go on. -/
theorem stepRunsDecodedInstruction : Obligations.StepRunsDecodedInstruction := by
  intro s i hrst hdone hacc hd
  have hstep : step s = afterCommand (exec i s) := (step_accept hrst hdone hacc).trans (commandEdge_legal hd)
  refine ⟨hstep, fun t ht => ⟨t.acceptEdge, ?_, rfl, rfl, rfl, rfl, acceptEdge_keeps_responses t⟩⟩
  rw [hstep, ht, afterCommand]

/-! ### The host -/

/-- Over an edge that accepts no command, the host keeps a command that it holds. -/
theorem step_host_holds {s t : State} (hrst : s.ports.rst = false) (hdone : s.resetDone = true)
    (hacc : s.accepts = false) (hv : s.ports.cmdValid = true) (hh : s.ports.hold = true) (ht : step s = .next t) :
    t.ports = s.ports ∧ t.hostQueue = s.hostQueue := by
  cases ht.symm.trans (step_wait hrst hdone hacc)
  rw [waitEdge_of_held hv hh]
  exact ⟨rfl, rfl⟩

/-- Over every other edge the host goes on to the next entry of its queue. -/
theorem step_host_advances {s t : State} (ht : step s = .next t)
    (h : s.ports.rst = true ∨ s.resetDone = false ∨ s.accepts = true ∨ s.ports.cmdValid = false ∨
      s.ports.hold = false) :
    t.ports = s.hostQueue.headD idlePorts ∧ t.hostQueue = s.hostQueue.tail := by
  rcases step_cases s with ⟨-, hs⟩ | ⟨-, -, hs⟩ | ⟨-, -, -, hs⟩ | ⟨hrst, hdone, hacc, hs⟩
  · cases ht.symm.trans hs
    exact ⟨rfl, rfl⟩
  · cases ht.symm.trans hs
    exact ⟨rfl, rfl⟩
  · obtain ⟨c, hc, -, -, -, -, -, hq, -⟩ := commandEdge_transacts s
    cases ht.symm.trans (hs.trans hc)
    exact ⟨congrArg (·.headD idlePorts) hq, congrArg List.tail hq⟩
  · have hheld : s.ports.cmdValid = false ∨ s.ports.hold = false := by simpa [hrst, hdone, hacc] using h
    cases ht.symm.trans hs
    rw [waitEdge_of_not_held hheld]
    exact ⟨rfl, rfl⟩

/-- Settles O4, from what each kind of edge leaves to the host. -/
theorem hostDrivesNextOrHolds : Obligations.HostDrivesNextOrHolds := fun _ _ ht =>
  ⟨fun hrst hdone hacc hv hh => step_host_holds hrst hdone hacc hv hh ht, step_host_advances ht⟩

/-- The host holds its command or goes on, over any edge. -/
theorem step_host_cases {s t : State} (ht : step s = .next t) :
    (t.ports = s.ports ∧ t.hostQueue = s.hostQueue) ∨
    (t.ports = s.hostQueue.headD idlePorts ∧ t.hostQueue = s.hostQueue.tail) := by
  by_cases h : s.ports.rst = false ∧ s.resetDone = true ∧ s.accepts = false ∧ s.ports.cmdValid = true ∧
      s.ports.hold = true
  · obtain ⟨hrst, hdone, hacc, hv, hh⟩ := h
    exact .inl (step_host_holds hrst hdone hacc hv hh ht)
  · refine .inr (step_host_advances ht ?_)
    simpa only [not_and_or, Bool.not_eq_true, Bool.not_eq_false] using h

/-- A host that never resets goes on not to. -/
theorem noReset_step {s t : State} (h : s.noReset) (ht : step s = .next t) : t.noReset := by
  obtain ⟨hp, hq⟩ := h
  rcases step_host_cases ht with ⟨hp', hq'⟩ | ⟨hp', hq'⟩
  · exact ⟨hp' ▸ hp, hq' ▸ hq⟩
  · rw [State.noReset, hp', hq']
    cases hl : s.hostQueue with
    | nil => exact ⟨rfl, by simp⟩
    | cons p rest =>
      rw [hl] at hq
      exact ⟨hq p List.mem_cons_self, fun x hx => hq x (List.mem_cons_of_mem p hx)⟩

end Sys2Proof.Machine
end

section
/-! Runs without reset (spec/10_state.md R26, R28, R39; 70_reset_and_hazards.md R119). -/

namespace Sys2Proof.Machine

/-! ### A run is its first edge and the rest -/

section
variable {s t : State} (h : step s = .next t) (n : Nat)
include h

theorem stepN_succ_of_next : stepN (n + 1) s = stepN n t := by
  rw [stepN, h]

theorem commandsIn_succ_of_next : commandsIn (n + 1) s = s.taken ++ commandsIn n t := by
  rw [commandsIn, h]

theorem responsesIn_succ_of_next : responsesIn (n + 1) s = t.presented ++ responsesIn n t := by
  rw [responsesIn, h]

end

/-! ### The transaction-level unit on two sequences of commands, one after the other -/

theorem transactStatus_append (st : Byte) (cs ds : List Accepted) :
    transactStatus st (cs ++ ds) = transactStatus (transactStatus st cs) ds := by
  induction cs generalizing st with
  | nil => rfl
  | cons c cs ih => exact ih (transactOne st c).status

theorem transactResponses_append (st : Byte) (cs ds : List Accepted) :
    transactResponses st (cs ++ ds) = transactResponses st cs ++ transactResponses (transactStatus st cs) ds := by
  induction cs generalizing st with
  | nil => rfl
  | cons c cs ih => exact congrArg (onPort (transactOne st c).rsp :: ·) (ih (transactOne st c).status)

/-! ### Refinement -/

/-- Settles O9, by induction on the number of edges: the first edge refines the transaction-level unit, and its
responses still outstanding are those the rest of the run starts with. -/
theorem runRefinesTransactions : Obligations.RunRefinesTransactions := by
  intro n
  induction n with
  | zero => exact fun s _ _ => ⟨s, rfl, rfl, (List.append_nil _).symm⟩
  | succ n ih =>
    intro s hdone hno
    obtain ⟨t, ht, htdone, htst, htrsp⟩ := stepRefinesTransaction s hdone hno.1
    obtain ⟨u, hu, hust, hursp⟩ := ih t htdone (noReset_step hno ht)
    refine ⟨u, (stepN_succ_of_next ht n).trans hu, ?_, ?_⟩
    · rw [hust, htst, commandsIn_succ_of_next ht, transactStatus_append]
    · calc responsesIn (n + 1) s ++ u.outstanding
          = t.presented ++ (responsesIn n t ++ u.outstanding) := by
            rw [responsesIn_succ_of_next ht, List.append_assoc]
        _ = (t.presented ++ t.outstanding) ++ transactResponses t.readStatus (commandsIn n t) := by
            rw [hursp, List.append_assoc]
        _ = s.outstanding ++ transactResponses s.readStatus (commandsIn (n + 1) s) := by
            rw [htrsp, htst, commandsIn_succ_of_next ht, transactResponses_append, List.append_assoc]

/-! ### READY_POLICY's current stall -/

/-- With the stall over and `rst` at 0, the unit is ready. -/
theorem cmdReady_of_stall_zero {s : State} (hst : s.stall = 0) (hrst : s.ports.rst = false) : s.cmdReady = true := by
  simp [State.cmdReady, hst, hrst]

/-- Settles O12, by induction on the stall, which each edge counts down. -/
theorem readyReturns : Obligations.ReadyReturns := by
  intro s hdone hno
  generalize hk : s.stall = k
  induction k generalizing s with
  | zero => exact ⟨s, rfl, cmdReady_of_stall_zero hk hno.1⟩
  | succ k ih =>
    obtain ⟨u, hu, he⟩ := step_edgeEffect hdone hno.1
    obtain ⟨t, ht, hready⟩ := ih u he.resetDone (noReset_step hno hu) (he.stall k hk)
    exact ⟨t, (stepN_succ_of_next hu k).trans ht, hready⟩

/-- Settles O13, by induction on the stall: a stalled edge accepts nothing, so the host holds its command and STATUS
stays. -/
theorem heldCommandIsAccepted : Obligations.HeldCommandIsAccepted := by
  intro s hdone hno hv hh
  generalize hk : s.stall = k
  induction k generalizing s with
  | zero => exact ⟨s, rfl, (accepts_iff s).mpr ⟨hv, hk, hno.1⟩, rfl, rfl, rfl⟩
  | succ k ih =>
    have hacc : s.accepts = false := not_accepts_of_stall hk
    obtain ⟨u, hu, he⟩ := step_edgeEffect hdone hno.1
    obtain ⟨hp, hq⟩ := step_host_holds hno.1 hdone hacc hv hh hu
    have hst : u.readStatus = s.readStatus := by rw [he.readStatus, taken_of_not_accepts hacc, transactStatus]
    obtain ⟨t, ht, haccepts, htp, htq, htst⟩ :=
      ih u he.resetDone (noReset_step hno hu) (hp ▸ hv) (hp ▸ hh) (he.stall k hk)
    exact ⟨t, (stepN_succ_of_next hu k).trans ht, haccepts, htp.trans hp, htq.trans hq, htst.trans hst⟩

end Sys2Proof.Machine
end

section
/-! The pipeline of responses and the invariant of the unit (spec/10_state.md R24, R26, R27; 60_exceptions.md R97;
70_reset_and_hazards.md R118). -/

namespace Sys2Proof.Machine

/-! ### A pipeline with at most one response due at an edge -/

/-- Waits rise strictly from oldest to newest and stay below `n`. -/
def spacedBelow (n : Nat) (l : List InFlight) : Prop :=
  l.Pairwise (fun p q => p.wait < q.wait) ∧ ∀ p ∈ l, p.wait < n

theorem pipelineOk_iff (l : List InFlight) : pipelineOk l ↔ spacedBelow Config.latencyLessOne l := Iff.rfl

theorem spacedBelow_nil (n : Nat) : spacedBelow n [] := ⟨.nil, by simp⟩

theorem spacedBelow.mono {n m : Nat} {l : List InFlight} (h : spacedBelow n l) (hnm : n ≤ m) : spacedBelow m l :=
  ⟨h.1, fun p hp => (h.2 p hp).trans_le hnm⟩

/-- A newcomer whose wait no earlier response reaches keeps the spacing. -/
theorem spacedBelow.concat {n : Nat} {l : List InFlight} {q : InFlight} (h : spacedBelow n l) (hq : q.wait = n) :
    spacedBelow (n + 1) (l ++ [q]) := by
  obtain ⟨hpair, hlt⟩ := h
  constructor
  · exact List.pairwise_append.mpr ⟨hpair, List.pairwise_singleton _ _, by simpa [hq] using hlt⟩
  · intro p hp
    rcases List.mem_append.mp hp with hp | hp
    · exact (hlt p hp).trans (Nat.lt_succ_self n)
    · rw [List.mem_singleton.mp hp, hq]
      exact Nat.lt_succ_self n

/-- No response waits less than the oldest. -/
theorem head_wait_le {n : Nat} {p q : InFlight} {rest : List InFlight} (h : spacedBelow n (p :: rest))
    (hq : q ∈ p :: rest) : p.wait ≤ q.wait := by
  rcases List.mem_cons.mp hq with rfl | hq
  · exact le_rfl
  · exact (List.rel_of_pairwise_cons h.1 hq).le

/-- A response whose wait is over is the oldest, so it is the one due. -/
theorem due_of_wait_zero {n : Nat} {l : List InFlight} {p : InFlight} (h : spacedBelow n l) (hp : p ∈ l)
    (h0 : p.wait = 0) : dueResponse l = some p.rsp := by
  cases l with
  | nil => cases hp
  | cons q rest =>
    have hq0 : q.wait = 0 := Nat.le_zero.mp (h0 ▸ head_wait_le h hp)
    rcases List.mem_cons.mp hp with rfl | hp
    · exact if_pos hq0
    · have hlt : q.wait < p.wait := List.rel_of_pairwise_cons h.1 hp
      omega

/-- A response that still waits is in flight after the edge, one edge closer. -/
theorem age_mem_still {l : List InFlight} {p : InFlight} (hp : p ∈ l) (hw : p.wait ≠ 0) :
    ageInFlight p ∈ stillInFlight l := by
  rcases due_cases l with ⟨q, rest, rfl, hq, -, hs⟩ | ⟨-, -, hs⟩
  · rw [hs]
    rcases List.mem_cons.mp hp with rfl | hp
    · exact absurd hq hw
    · exact List.mem_map_of_mem hp
  · rw [hs]
    exact List.mem_map_of_mem hp

/-- An edge presents the response whose wait is over and brings every other one edge closer, so the bound falls by
one. -/
theorem spacedBelow.still {n : Nat} {l : List InFlight} (h : spacedBelow (n + 1) l) :
    spacedBelow n (stillInFlight l) := by
  rcases due_cases l with ⟨p, rest, rfl, hp0, -, hs⟩ | ⟨hhead, -, hs⟩
  · obtain ⟨hpair, hlt⟩ := h
    obtain ⟨hfirst, hrest⟩ := List.pairwise_cons.mp hpair
    rw [hs]
    exact ageInFlight_pipeline hrest (fun q hq => hp0 ▸ hfirst q hq) fun q hq => hlt q (List.mem_cons_of_mem p hq)
  · rw [hs]
    refine ageInFlight_pipeline h.1 (fun q hq => ?_) h.2
    cases l with
    | nil => cases hq
    | cons p rest => exact (Nat.pos_of_ne_zero (hhead p rfl)).trans_le (head_wait_le h hq)

/-- Waits that differ and stay below `n` leave room for at most `n` responses. -/
theorem spacedBelow.length_le {n : Nat} {l : List InFlight} (h : spacedBelow n l) : l.length ≤ n := by
  obtain ⟨hpair, hlt⟩ := h
  have hnodup : (l.map InFlight.wait).Nodup := List.pairwise_map.mpr (hpair.imp fun hpq => hpq.ne)
  have hsub : l.map InFlight.wait ⊆ List.range n := fun w hw => by
    obtain ⟨p, hp, rfl⟩ := List.mem_map.mp hw
    exact List.mem_range.mpr (hlt p hp)
  simpa using (hnodup.subperm hsub).length_le

/-! ### The pipeline over an edge -/

/-- The command accepted at this edge joins a spaced pipeline behind all others. -/
theorem spacedBelow_answers {s : State} (h : spacedBelow Config.latencyLessOne s.inFlight) :
    spacedBelow Config.latency (s.inFlight ++ s.answers) := by
  cases hacc : s.accepts
  · rw [answers_of_not_accepts hacc, List.append_nil]
    exact h.mono (Nat.le_succ _)
  · rw [State.answers, taken_of_accepts hacc]
    exact h.concat rfl

/-- No exception has the reserved code 3 (R97). -/
theorem excCode_ne_three (e : Exc) : excCode e ≠ 3 := by
  cases e <;> decide

/-- The code on the response port after an edge is that of a response. -/
theorem EdgeEffect.exists_rspExc {s u : State} (he : EdgeEffect s u) (hv : u.rspValid = true) :
    ∃ p, dueResponse (s.inFlight ++ s.answers) = some p ∧ u.rspExc = excCode p.exc := by
  have hport := (presented_of_rspValid hv).symm.trans he.presented
  cases hd : dueResponse (s.inFlight ++ s.answers) with
  | none => simp [hd] at hport
  | some p =>
    rw [hd] at hport
    exact ⟨p, rfl, congrArg Prod.snd (List.cons.inj hport).1⟩

/-- The invariant over an edge without reset, after a reset. -/
theorem EdgeEffect.keeps_inv {s u : State} (he : EdgeEffect s u) (hdone : s.resetDone = true) (h : s.Inv) : u.Inv := by
  obtain ⟨hbits, hpipe⟩ := h
  obtain ⟨hspaced, -⟩ := hpipe hdone
  refine ⟨he.reserved hbits, fun _ => ⟨?_, fun hv => ?_⟩⟩
  · rw [pipelineOk_iff, he.inFlight]
    exact (spacedBelow_answers hspaced).still
  · obtain ⟨p, -, hexc⟩ := he.exists_rspExc hv
    rw [hexc]
    exact excCode_ne_three p.exc

/-- STATUS bits 7:2 are 0 in whatever the STATUS mask lets through. -/
theorem masked_reserved (v : Byte) : (v &&& statusMask) &&& 0xFC = 0 := by
  rw [BitVec.and_assoc]
  exact BitVec.and_zero

/-- Settles O15, by the kind of edge: a reset edge leaves the pipeline empty and nothing presented, an edge before the
first reset leaves only STATUS to check, and any other edge has the effect of the transaction-level unit. -/
theorem stepKeepsInv : Obligations.StepKeepsInv := by
  intro s t hinv ht
  rcases step_cases s with ⟨-, h⟩ | ⟨-, hd, h⟩ | ⟨hrst, hd, -, -⟩ | ⟨hrst, hd, -, -⟩
  · cases ht.symm.trans h
    exact ⟨masked_reserved _, fun _ => ⟨spacedBelow_nil _, nofun⟩⟩
  · cases ht.symm.trans h
    refine ⟨masked_reserved _, fun hdone => ?_⟩
    rw [State.unresetEdge_resetDone, hd] at hdone
    cases hdone
  · exact (edgeEffect_of_step hd hrst ht).keeps_inv hd hinv
  · exact (edgeEffect_of_step hd hrst ht).keeps_inv hd hinv

/-- Settles O14: after reset nothing is in flight or presented, and before it only STATUS bits 7:2 are known. -/
theorem resetAndPowerOnMeetInv : Obligations.ResetAndPowerOnMeetInv :=
  ⟨⟨rfl, fun _ => ⟨spacedBelow_nil _, nofun⟩⟩, fun _ _ => ⟨masked_reserved _, nofun⟩⟩

/-! ### How many, and how long -/

/-- At most one response is presented. -/
theorem presented_length_le (s : State) : s.presented.length ≤ 1 := by
  rw [State.presented]
  cases s.rspValid <;> simp

/-- Settles O11: one response on the port, and in flight one for each wait below LATENCY - 1. -/
theorem atMostLatencyResponses : Obligations.AtMostLatencyResponses := by
  intro s hinv hdone
  obtain ⟨hspaced, -⟩ := hinv.2 hdone
  have hport : s.presented.length ≤ 1 := presented_length_le s
  have hflight : s.inFlight.length ≤ Config.latencyLessOne := spacedBelow.length_le hspaced
  rw [List.length_append, State.outstanding, List.length_map, Config.latency]
  omega

/-- A response in flight at an edge, or joining at it, is presented after that edge and as many more as it waits. -/
theorem presented_after_wait {s : State} {p : InFlight} (hinv : s.Inv) (hdone : s.resetDone = true) (hno : s.noReset)
    (hp : p ∈ s.inFlight ++ s.answers) : ∃ u, stepN (p.wait + 1) s = some u ∧ u.presented = [onPort p.rsp] := by
  generalize hk : p.wait = k
  induction k generalizing s p with
  | zero =>
    obtain ⟨u, hu, he⟩ := step_edgeEffect hdone hno.1
    obtain ⟨hspaced, -⟩ := hinv.2 hdone
    refine ⟨u, stepN_succ_of_next hu 0, ?_⟩
    rw [he.presented, due_of_wait_zero (spacedBelow_answers hspaced) hp hk]
    rfl
  | succ k ih =>
    obtain ⟨t, ht, he⟩ := step_edgeEffect hdone hno.1
    have hmem : ageInFlight p ∈ t.inFlight := he.inFlight ▸ age_mem_still hp (by omega)
    have hwait : (ageInFlight p).wait = k := by simp [ageInFlight, hk]
    obtain ⟨u, hu, hpres⟩ :=
      ih (he.keeps_inv hdone hinv) he.resetDone (noReset_step hno ht) (List.mem_append_left _ hmem) hwait
    exact ⟨u, (stepN_succ_of_next ht (k + 1)).trans hu, hpres⟩

/-- Settles O10: the response joins the pipeline at the accepting edge with wait LATENCY - 1. -/
theorem responseAfterLatency : Obligations.ResponseAfterLatency := by
  intro s hinv hdone hno hacc
  rw [taken_of_accepts hacc]
  refine presented_after_wait (p := newInFlight s.readStatus _) hinv hdone hno (List.mem_append_right _ ?_)
  rw [State.answers, taken_of_accepts hacc]
  exact List.mem_singleton_self _

end Sys2Proof.Machine
end

section
/-! The decoder against the encoder and the match/mask rows (spec/30_encoding.md R42 to R50). -/

namespace Sys2Proof

/-! ### Fields -/

/-- Well-formedness is that the immediate fits IMM3 (R44). -/
theorem wellFormed_iff (i : Instr) : i.wellFormed = true ↔ immediate i < 8 := by
  cases i
  case extr k | shl k | shr k => exact decide_eq_true_iff
  all_goals exact iff_of_true rfl (Nat.zero_lt_succ 7)

/-- The fields of a well-formed instruction's word. -/
theorem encode_fields {i : Instr} (hi : i.wellFormed = true) :
    cmdOp (encode i) = opcode i ∧ (cmdImm3 (encode i)).toNat = immediate i ∧
    cmdRsva (encode i) = 0 ∧ cmdRsvb (encode i) = 0 :=
  Laws.EncodeFields.of_immediate_lt (wellFormed_iff i).mp hi

/-- An opcode with its immediate selects its operation. -/
theorem opcodeMap_opcode (i : Instr) : opcodeMap (opcode i).toNat (immediate i) = some (i, usesImm3 i) := by
  cases i <;> rfl

/-- An operation that does not use IMM3 has immediate 0. -/
theorem immediate_of_not_usesImm3 {i : Instr} (h : usesImm3 i = false) : immediate i = 0 := by
  cases i
  case extr | shl | shr => cases h
  all_goals rfl

/-! ### Decode and encode are inverse -/

theorem decode_encode {i : Instr} (hi : i.wellFormed = true) : decode (encode i) = .ok i := by
  obtain ⟨hop, himm, ha, hb⟩ := encode_fields hi
  have hunused : ¬ (usesImm3 i = false ∧ cmdImm3 (encode i) ≠ 0) := fun ⟨huses, hne⟩ =>
    hne (BitVec.eq_of_toNat_eq (himm.trans (immediate_of_not_usesImm3 huses)))
  simp only [decode, hop, himm, opcodeMap_opcode]
  rw [if_neg (not_not.mpr ha), if_neg (not_not.mpr hb), if_neg hunused]

/-- Settles O16: the fields are in place, and from them the decoder reads the instruction back. -/
theorem decodeEncode : Obligations.DecodeEncode := fun _ hi => ⟨decode_encode hi, encode_fields hi⟩

/-- Settles O17: a word that decodes is its opcode and IMM3 packed, and IMM3 is below 8. -/
theorem encodeDecode : Obligations.EncodeDecode := fun w i h => by
  obtain ⟨hw, himm⟩ := encode_of_decode h
  exact ⟨hw, (wellFormed_iff i).mpr himm⟩

/-! ### The match/mask rows -/

/-- The operations in the order of R47, with immediate 0. -/
def operations : List Instr :=
  [.bcast, .extr 0, .add, .sub, .adds, .subs, .cmpeq, .cmpne, .cmplt, .cmple, .cmpgt, .cmpge, .and, .or, .xor, .not,
    .sel, .mchk, .min, .max, .shl 0, .shr 0, .pcnt, .many, .mall, .mcount, .hsum, .hmin, .hmax, .rdstat, .clrstat]

/-- The row of an operation: its word with IMM3 at 0, and a mask that leaves out IMM3 where the operation uses it. -/
def rowOf (i : Instr) : CmdWord × CmdWord := (encode i, if usesImm3 i then 0xF8FF else 0xFFFF)

/-- The rows that R48 lists are those of the operations. -/
theorem matchRows_eq : matchRows = operations.map rowOf := by decide

/-- An operation with another immediate, where it has one. -/
def Instr.withImmediate (i : Instr) (n : Nat) : Instr :=
  match i with
  | .extr _ => .extr n
  | .shl _ => .shl n
  | .shr _ => .shr n
  | i => i

theorem opcode_withImmediate (i : Instr) (n : Nat) : opcode (i.withImmediate n) = opcode i := by
  cases i <;> rfl

theorem immediate_withImmediate {i : Instr} (h : usesImm3 i = true) (n : Nat) : immediate (i.withImmediate n) = n := by
  cases i
  case extr | shl | shr => rfl
  all_goals cases h

/-- The bits that the mask 0xF8FF leaves out are IMM3 in its place. -/
theorem and_imm3_bits (w : CmdWord) : w &&& (0x0700 : CmdWord) = (cmdImm3 w).setWidth 16 <<< 8 := by
  ext j hj
  interval_cases j <;> simp [cmdImm3]

/-- A word that agrees outside IMM3 with a packed opcode is that opcode with the word's own IMM3. -/
theorem eq_cmdPack_of_and_eq {w : CmdWord} {op : BitVec 6} (h : w &&& 0xF8FF = cmdPack 0 op) :
    w = cmdPack (cmdImm3 w) op := by
  calc w = w &&& (0xF8FF ||| 0x0700) := BitVec.and_allOnes.symm
    _ = cmdPack 0 op ||| (cmdImm3 w).setWidth 16 <<< 8 := by rw [BitVec.and_or_distrib_left, h, and_imm3_bits]
    _ = cmdPack (cmdImm3 w) op := by simp [Machine.cmdPack_eq_or]

/-- A word that fits the row of an operation is the word of that operation, with the immediate in its IMM3. -/
theorem exists_encode_of_row {w : CmdWord} {i : Instr} (h0 : immediate i = 0) (h : w &&& (rowOf i).2 = (rowOf i).1) :
    ∃ j : Instr, j.wellFormed = true ∧ encode j = w := by
  cases huses : usesImm3 i
  case false =>
    refine ⟨i, (wellFormed_iff i).mpr (h0 ▸ Nat.zero_lt_succ 7), ?_⟩
    simp only [rowOf, huses] at h
    rw [← h]
    exact BitVec.and_allOnes
  case true =>
    have himm : immediate (i.withImmediate (cmdImm3 w).toNat) = (cmdImm3 w).toNat := immediate_withImmediate huses _
    refine ⟨i.withImmediate (cmdImm3 w).toNat, (wellFormed_iff _).mpr (himm.trans_lt (cmdImm3 w).isLt), ?_⟩
    simp only [rowOf, huses, encode, h0] at h
    rw [encode, himm, opcode_withImmediate, BitVec.ofNat_toNat, BitVec.setWidth_eq]
    exact (eq_cmdPack_of_and_eq h).symm

/-- The legal words are those of the well-formed instructions. -/
theorem legal_iff_encode (w : CmdWord) : legal w = true ↔ ∃ i : Instr, i.wellFormed = true ∧ encode i = w := by
  constructor
  · intro h
    rw [legal, matchRows_eq, List.any_map, List.any_eq_true] at h
    obtain ⟨i, hi, hrow⟩ := h
    have h0 : immediate i = 0 := (by decide : ∀ i ∈ operations, immediate i = 0) i hi
    exact exists_encode_of_row h0 (beq_iff_eq.mp hrow)
  · rintro ⟨i, hi, rfl⟩
    exact legal_encode ((wellFormed_iff i).mp hi)

/-- Settles O18: both sides say that the word is that of a well-formed instruction. -/
theorem legalIffDecodes : Obligations.LegalIffDecodes := fun w => by
  rw [legal_iff_encode]
  constructor
  · rintro ⟨i, hi, rfl⟩
    exact ⟨i, decode_encode hi⟩
  · rintro ⟨i, hd⟩
    obtain ⟨hw, hi⟩ := encodeDecode w i hd
    exact ⟨i, hi, hw⟩

/-! ### Counting the legal words -/

/-- The well-formed instructions: each operation, once for each immediate it can have. -/
def wellFormedInstrs : List Instr :=
  operations.flatMap fun i => if usesImm3 i then (List.range 8).map i.withImmediate else [i]

theorem mem_wellFormedInstrs (i : Instr) : i ∈ wellFormedInstrs ↔ i.wellFormed = true := by
  constructor
  · exact (by decide : ∀ i ∈ wellFormedInstrs, i.wellFormed = true) i
  · intro hi
    rw [wellFormed_iff] at hi
    cases i
    case extr k | shl k | shr k =>
      simp only [immediate] at hi
      interval_cases k <;> decide
    all_goals decide

/-- No two well-formed instructions have one word. -/
theorem encode_injOn {i j : Instr} (hi : i.wellFormed = true) (hj : j.wellFormed = true) (h : encode i = encode j) :
    i = j :=
  Except.ok.inj ((decode_encode hi).symm.trans ((congrArg decode h).trans (decode_encode hj)))

/-- Settles O19: the words of the well-formed instructions, each once. -/
theorem fiftyTwoLegalWords : Obligations.FiftyTwoLegalWords := by
  refine ⟨wellFormedInstrs.map encode, rfl, ?_, fun w => ?_⟩
  · refine List.Nodup.map_on (fun i hi j hj => ?_) (by decide)
    exact encode_injOn ((mem_wellFormedInstrs i).mp hi) ((mem_wellFormedInstrs j).mp hj)
  · simp only [List.mem_map, mem_wellFormedInstrs, legal_iff_encode]

/-- Settles O20, by running the decoder on each word. -/
theorem exampleWordsDecode : Obligations.ExampleWordsDecode := ⟨rfl, rfl, rfl, rfl, rfl, rfl, rfl, rfl⟩

end Sys2Proof
end

section
/-! Whole words and their lanes: masks, selects, sums without a carry between lanes, and shifts (spec/00_scope.md R11,
R12; 10_state.md R23; 20_memory.md R33). -/

namespace Sys2Proof.Machine

/-! ### Packing -/

theorem unpack_pack (v : Fin 8 → Byte) : unpack (pack v) = v := funext fun i => lane_pack v i

theorem pack_unpack (w : Word) : pack (unpack w) = w := word_ext_lanes fun i hi => lane_pack (unpack w) ⟨i, hi⟩

/-- Settles O56. -/
theorem packUnpackRoundTrip : Obligations.PackUnpackRoundTrip := ⟨unpack_pack, pack_unpack⟩

/-! ### Words of mask bytes -/

/-- A word whose lanes are mask bytes is a valid mask. -/
theorem validMask_of_lanes {m : Word} {c : Nat → Bool} (h : ∀ i < 8, lane m i = maskByte (c i)) :
    validMask m = true :=
  eq_lanewise h ▸ validMask_lanewise_maskByte c

theorem lane_compareWord_bool (rel : Nat → Nat → Bool) (a b : Word) {i : Nat} (hi : i < 8) :
    lane (compareWord rel a b) i = maskByte (rel (lane a i).toNat (lane b i).toNat) :=
  lane_lanewise _ hi

theorem validMask_compareWord (rel : Nat → Nat → Bool) (a b : Word) : validMask (compareWord rel a b) = true :=
  validMask_lanewise_maskByte _

theorem not_compareWord (rel : Nat → Nat → Bool) (a b : Word) :
    ~~~compareWord rel a b = compareWord (fun x y => !rel x y) a b :=
  eq_lanewise fun i hi => by rw [lane_not _ hi, lane_compareWord_bool _ a b hi, maskByte_not]

theorem or_compareWord (rel rel' : Nat → Nat → Bool) (a b : Word) :
    compareWord rel a b ||| compareWord rel' a b = compareWord (fun x y => rel x y || rel' x y) a b :=
  eq_lanewise fun i hi => by rw [lane_or, lane_compareWord_bool _ a b hi, lane_compareWord_bool _ a b hi, maskByte_or]

section
variable {a b : Word} (ha : validMask a = true) (hb : validMask b = true)
include ha

theorem validMask_not : validMask (~~~a) = true :=
  validMask_of_lanes fun i hi => by rw [lane_not a hi, lane_eq_maskByte ha hi, maskByte_not]

include hb

theorem validMask_and : validMask (a &&& b) = true :=
  validMask_of_lanes fun i hi => by rw [lane_and, lane_eq_maskByte ha hi, lane_eq_maskByte hb hi, maskByte_and]

theorem validMask_or : validMask (a ||| b) = true :=
  validMask_of_lanes fun i hi => by rw [lane_or, lane_eq_maskByte ha hi, lane_eq_maskByte hb hi, maskByte_or]

theorem validMask_xor : validMask (a ^^^ b) = true :=
  validMask_of_lanes fun i hi => by rw [lane_xor, lane_eq_maskByte ha hi, lane_eq_maskByte hb hi, maskByte_xor]

end

/-- A mask-producing operation that completes gives a valid mask: MCHK gives the M it checked, and a comparison is
made of mask bytes. -/
theorem validMask_resultWord {i : Instr} (hi : producesMask i = true) {m : Word}
    (hm : readsM i = true → validMask m = true) (status : Byte) (a b : Word) :
    validMask (Reference.resultWord i status a b m) = true := by
  cases i
  case mchk => exact hm rfl
  case cmpeq | cmpne | cmplt | cmple | cmpgt | cmpge =>
    simp only [Reference.resultWord, cmpeqWord, cmpneWord, cmpltWord, cmpleWord, cmpgtWord, cmpgeWord,
      validMask_compareWord]
  all_goals cases hi

/-- Settles O35: what produces a mask completes with mask bytes, and bitwise operations on mask bytes give mask bytes. -/
theorem maskProducersGiveMasks : Obligations.MaskProducersGiveMasks := by
  refine ⟨fun i s hi hm => ⟨_, exec_eq_complete ?_ hm, validMask_resultWord hi hm _ _ _⟩, fun s ha hb => ?_⟩
  · rintro rfl
    cases hi
  · exact ⟨_, _, _, _, completesWith_of_isLanewise s rfl, completesWith_of_isLanewise s rfl,
      completesWith_of_isLanewise s rfl, completesWith_of_isLanewise s rfl,
      validMask_and ha hb, validMask_or ha hb, validMask_xor ha hb, validMask_not ha⟩

/-! ### Comparisons among each other -/

theorem cmpneWord_eq (a b : Word) : cmpneWord a b = ~~~cmpeqWord a b := by
  simp only [cmpneWord, cmpeqWord, not_compareWord, ne_eq, decide_not]

theorem cmpleWord_eq (a b : Word) : cmpleWord a b = cmpltWord a b ||| cmpeqWord a b := by
  simp only [cmpleWord, cmpltWord, cmpeqWord, or_compareWord, Nat.le_iff_lt_or_eq, Bool.decide_or]

theorem cmpgeWord_eq (a b : Word) : cmpgeWord a b = ~~~cmpltWord a b := by
  simp only [cmpgeWord, cmpltWord, not_compareWord, ge_iff_le, ← Nat.not_lt, decide_not]

theorem cmpgtWord_eq (a b : Word) : cmpgtWord a b = ~~~(cmpltWord a b ||| cmpeqWord a b) := by
  rw [← cmpleWord_eq]
  simp only [cmpgtWord, cmpleWord, not_compareWord, gt_iff_lt, ← Nat.not_le, decide_not]

/-- Settles O33: the six comparisons are lane-wise, and the identities are those of the relations they compare by. -/
theorem compareIdentities : Obligations.CompareIdentities := fun s =>
  ⟨cmpeqWord s.ports.opa s.ports.opb, cmpltWord s.ports.opa s.ports.opb,
    completesWith_of_isLanewise s rfl, completesWith_of_isLanewise s rfl,
    cmpneWord_eq s.ports.opa s.ports.opb ▸ completesWith_of_isLanewise s rfl,
    cmpleWord_eq s.ports.opa s.ports.opb ▸ completesWith_of_isLanewise s rfl,
    cmpgeWord_eq s.ports.opa s.ports.opb ▸ completesWith_of_isLanewise s rfl,
    cmpgtWord_eq s.ports.opa s.ports.opb ▸ completesWith_of_isLanewise s rfl⟩

/-! ### Minimum and maximum by select -/

/-- A select by a comparison chooses each lane by the relation. -/
theorem lane_selWord_compareWord (rel : Nat → Nat → Bool) (x y a b : Word) {i : Nat} (hi : i < 8) :
    lane (selWord (compareWord rel x y) a b) i =
      if rel (lane x i).toNat (lane y i).toNat then lane a i else lane b i := by
  rw [lane_selWord (validMask_compareWord rel x y) a b hi, lane_compareWord_bool rel x y hi]
  cases rel (lane x i).toNat (lane y i).toNat <;> simp [maskByte]

theorem minWord_eq_sel (a b : Word) : minWord a b = selWord (cmpltWord a b) a b := by
  refine word_ext_lanes fun i hi => BitVec.eq_of_toNat_eq ?_
  rw [lane_minWord_toNat a b hi, cmpltWord, lane_selWord_compareWord _ a b a b hi]
  simp only [decide_eq_true_eq]
  split <;> omega

theorem maxWord_eq_sel (a b : Word) : maxWord a b = selWord (cmpgeWord a b) a b := by
  refine word_ext_lanes fun i hi => BitVec.eq_of_toNat_eq ?_
  rw [lane_maxWord_toNat a b hi, cmpgeWord, lane_selWord_compareWord _ a b a b hi]
  simp only [decide_eq_true_eq]
  split <;> omega

theorem minWord_comm (a b : Word) : minWord a b = minWord b a := by
  simp only [minWord, Nat.min_comm]

theorem maxWord_comm (a b : Word) : maxWord a b = maxWord b a := by
  simp only [maxWord, Nat.max_comm]

theorem minWord_self (a : Word) : minWord a a = a :=
  word_ext_lanes fun _ hi => BitVec.eq_of_toNat_eq ((lane_minWord_toNat a a hi).trans (Nat.min_self _))

theorem maxWord_self (a : Word) : maxWord a a = a :=
  word_ext_lanes fun _ hi => BitVec.eq_of_toNat_eq ((lane_maxWord_toNat a a hi).trans (Nat.max_self _))

/-- SEL by a comparison of its operands completes: a comparison is a valid mask. -/
theorem completesWith_sel_withOperands {s : State} {a b m : Word} (hm : validMask m = true) :
    completesWith .sel (s.withOperands a b m) (selWord m a b) :=
  completesWith_of_validMask (by decide) hm

/-- Settles O40: MIN and MAX are the selects as whole words, and commutative and idempotent as their lanes are. -/
theorem minMaxBySelect : Obligations.MinMaxBySelect := by
  intro s
  set a := s.ports.opa
  set b := s.ports.opb
  refine ⟨cmpltWord a b, cmpgeWord a b, minWord a b, maxWord a b,
    completesWith_of_isLanewise s rfl, completesWith_of_isLanewise s rfl, completesWith_of_isLanewise s rfl,
    completesWith_of_isLanewise s rfl, ?_, ?_, ?_, ?_, ?_, ?_⟩
  · rw [minWord_eq_sel]
    exact completesWith_sel_withOperands (validMask_compareWord _ a b)
  · rw [maxWord_eq_sel]
    exact completesWith_sel_withOperands (validMask_compareWord _ a b)
  · rw [minWord_comm]
    exact completesWith_of_isLanewise (s.withOperands b a s.ports.opm) rfl
  · rw [maxWord_comm]
    exact completesWith_of_isLanewise (s.withOperands b a s.ports.opm) rfl
  · have h := completesWith_of_isLanewise (i := .min) (s.withOperands a a s.ports.opm) rfl
    rwa [Reference.resultWord, State.withOperands_opa, State.withOperands_opb, minWord_self] at h
  · have h := completesWith_of_isLanewise (i := .max) (s.withOperands a a s.ports.opm) rfl
    rwa [Reference.resultWord, State.withOperands_opa, State.withOperands_opb, maxWord_self] at h

/-! ### What a result depends on -/

/-- Only RDSTAT and CLRSTAT have STATUS in their result. -/
theorem resultWord_status_congr {i : Instr} (hr : i ≠ .rdstat) (hc : i ≠ .clrstat) (st st' : Byte) (a b m : Word) :
    Reference.resultWord i st a b m = Reference.resultWord i st' a b m := by
  cases i
  case rdstat => exact absurd rfl hr
  case clrstat => exact absurd rfl hc
  all_goals rfl

/-- Settles O54: the command completes in both states, with a result that no STATUS enters. -/
theorem resultsDependOnOperandsOnly : Obligations.ResultsDependOnOperandsOnly := by
  intro i s s' hr hc ha hb hm hv
  refine ⟨_, exec_eq_complete hc hv, ?_⟩
  rw [ha, hb, hm, resultWord_status_congr hr hc s.readStatus s'.readStatus]
  exact exec_eq_complete hc (hm ▸ hv)

end Sys2Proof.Machine
end

section
/-! Whole-word formulas against the lane-wise meanings (spec/41_add_sub.md R62 to R64, 42_compare.md R73,
45_shift_count.md R86). -/

namespace Sys2Proof.Machine

open Reference

/-! ### Word arithmetic that crosses no lane -/

/-- Where no lane of a sum overflows, words are added lane by lane. -/
theorem lane_add_of_noCarry {x y : Word} (h : ∀ i < 8, (lane x i).toNat + (lane y i).toNat < 256) {i : Nat}
    (hi : i < 8) : lane (x + y) i = lane x i + lane y i := by
  have hlane : ∀ i < 8, (lane x i + lane y i).toNat = (lane x i).toNat + (lane y i).toNat := fun i hi => by
    rw [BitVec.toNat_add, Nat.mod_eq_of_lt (h i hi)]
  have hsum : x.toNat + y.toNat = (lanewise fun i => lane x i + lane y i).toNat := by
    rw [word_toNat (lanewise _), word_toNat x, word_toNat y]
    simp only [lane_lanewise, hlane, Nat.reduceLT]
    omega
  have hword : x + y = lanewise fun i => lane x i + lane y i := by
    apply BitVec.eq_of_toNat_eq
    rw [BitVec.toNat_add, hsum, Nat.mod_eq_of_lt (BitVec.isLt _)]
  rw [hword, lane_lanewise _ hi]

/-- Where no lane of a difference is negative, words are subtracted lane by lane. -/
theorem lane_sub_of_noBorrow {x y : Word} (h : ∀ i < 8, (lane y i).toNat ≤ (lane x i).toNat) {i : Nat}
    (hi : i < 8) : lane (x - y) i = lane x i - lane y i := by
  have hd : (lanewise fun i => lane x i - lane y i) + y = x := by
    refine word_ext_lanes fun j hj => ?_
    rw [lane_add_of_noCarry (fun k hk => ?_) hj, lane_lanewise _ hj, sub_add_cancel]
    rw [lane_lanewise _ hk, BitVec.toNat_sub_of_le (BitVec.le_def.mpr (h k hk)), Nat.sub_add_cancel (h k hk)]
    exact (lane x k).isLt
  rw [← eq_sub_iff_add_eq.mpr hd, lane_lanewise _ hi]

/-- Flags of the lanes, times 0xFF, are mask bytes: no product reaches the next lane. -/
theorem lane_mul_of_flags {x : Word} {c : Nat → Bool} (h : ∀ i < 8, lane x i = BitVec.ofNat 8 (c i).toNat) {i : Nat}
    (hi : i < 8) : lane (x * 0xFF) i = maskByte (c i) := by
  have hlane : ∀ i < 8, (maskByte (c i)).toNat = (lane x i).toNat * 255 := fun i hi => by
    rw [h i hi]
    cases c i <;> rfl
  have hprod : x.toNat * 255 = (lanewise fun i => maskByte (c i)).toNat := by
    rw [word_toNat (lanewise _), word_toNat x]
    simp only [lane_lanewise, hlane, Nat.reduceLT]
    omega
  have hones : (0xFF : Word).toNat = 255 := rfl
  have hword : x * 0xFF = lanewise fun i => maskByte (c i) := by
    apply BitVec.eq_of_toNat_eq
    rw [BitVec.toNat_mul, hones, hprod, Nat.mod_eq_of_lt (BitVec.isLt _)]
  rw [hword, lane_lanewise _ hi]

/-! ### Word shifts under a mask -/

/-- Shifted right, the bits that a mask keeps inside their lane are those of the lane shifted right. -/
theorem lane_ushiftRight_and (x : Word) (n : Nat) {c : Byte} (hc : c &&& (BitVec.allOnes 8 >>> n) = c) {i : Nat}
    (hi : i < 8) : lane ((x >>> n) &&& bytes8 c) i = (lane x i >>> n) &&& c := by
  rw [lane_and, lane_bytes8 c hi]
  refine BitVec.eq_of_getLsbD_eq fun j hj => ?_
  rw [BitVec.getLsbD_and, BitVec.getLsbD_and]
  cases hcj : c.getLsbD j
  · rw [Bool.and_false, Bool.and_false]
  · have hnj : n + j < 8 := by
      rw [← hc] at hcj
      simp only [BitVec.getLsbD_and, BitVec.getLsbD_ushiftRight, BitVec.getLsbD_allOnes, Bool.and_eq_true,
        decide_eq_true_eq] at hcj
      exact hcj.2
    simp only [lane_getLsbD, BitVec.getLsbD_ushiftRight, hj, hnj, Nat.add_left_comm]

/-- Shifted left, the bits that a mask keeps inside their lane are those of the lane shifted left. -/
theorem lane_shiftLeft_and (x : Word) (n : Nat) {c : Byte} (hc : c &&& (BitVec.allOnes 8 <<< n) = c) {i : Nat}
    (hi : i < 8) : lane ((x <<< n) &&& bytes8 c) i = (lane x i <<< n) &&& c := by
  rw [lane_and, lane_bytes8 c hi]
  refine BitVec.eq_of_getLsbD_eq fun j hj => ?_
  rw [BitVec.getLsbD_and, BitVec.getLsbD_and]
  cases hcj : c.getLsbD j
  · rw [Bool.and_false, Bool.and_false]
  · have hnj : n ≤ j := by
      rw [← hc] at hcj
      simp only [BitVec.getLsbD_and, BitVec.getLsbD_shiftLeft, Bool.and_eq_true, Bool.not_eq_true',
        decide_eq_false_iff_not, not_lt] at hcj
      exact hcj.2.1.2
    have hidx : 8 * i + j - n = 8 * i + (j - n) := Nat.add_sub_assoc hnj _
    have hlt : j - n < 8 := (Nat.sub_le j n).trans_lt hj
    have hin : 8 * i + j < 64 := by omega
    have hni : ¬ 8 * i + j < n := by omega
    simp only [lane_getLsbD, BitVec.getLsbD_shiftLeft, hj, hidx, hlt, hin, hni, not_lt.mpr hnj, decide_true,
      decide_false, Bool.not_false, Bool.true_and]

/-! ### ADD and SUB under masks -/

theorem lane_topBits {i : Nat} (hi : i < 8) : lane topBits i = 0x80 := lane_bytes8 0x80 hi

theorem lane_lowBits {i : Nat} (hi : i < 8) : lane lowBits i = 0x7F := lane_bytes8 0x7F hi

theorem lane_addWord (a b : Word) {i : Nat} (hi : i < 8) : lane (addWord a b) i = lane a i + lane b i :=
  BitVec.eq_of_toNat_eq ((lane_addWord_toNat a b hi).trans (BitVec.toNat_add _ _).symm)

theorem lane_subWord (a b : Word) {i : Nat} (hi : i < 8) : lane (subWord a b) i = lane a i - lane b i := by
  have h : ((lane (subWord a b) i).toNat : Int) = _ := lane_subWord_toNat a b hi
  apply BitVec.eq_of_toNat_eq
  rw [BitVec.toNat_sub]
  omega

/-- The top bit of a byte flipped, or kept, is 128 added modulo 256, or not. -/
theorem xor_topByte (z w : Byte) : z ^^^ (w &&& 0x80) = z + (w &&& 0x80) := by
  have hflip : ∀ z : Byte, z ^^^ 0x80 = z + 0x80 := by decide
  have hbit : ∀ w : Byte, w &&& 0x80 = 0#8 ∨ w &&& 0x80 = 0x80 := by decide
  rcases hbit w with h | h
  · rw [h, BitVec.xor_zero, BitVec.add_zero]
  · rw [h, hflip]

/-- The top bits of two bytes add up, without a carry, to the top bit of their exclusive or. -/
theorem topByte_xor (x y : Byte) : (x ^^^ y) &&& 0x80 = (x &&& 0x80) + (y &&& 0x80) := by
  rw [← xor_topByte]
  exact BitVec.eq_of_getLsbD_eq fun j _ => by
    simp only [BitVec.getLsbD_and, BitVec.getLsbD_xor, Bool.and_xor_distrib_right]

/-- A byte is its low seven bits and its top bit. -/
theorem lowByte_add_topByte (x : Byte) : (x &&& 0x7F) + (x &&& 0x80) = x := by
  revert x
  decide

/-- Setting the top bit of a byte. -/
theorem or_topByte (x : Byte) : x ||| 0x80 = (x &&& 0x7F) + 0x80 := by
  revert x
  decide

/-- The complement of a byte's top bit. -/
theorem topByte_not (x : Byte) : ~~~x &&& 0x80 = 0x80 - (x &&& 0x80) := by
  revert x
  decide

theorem lowByte_toNat_le (x : Byte) : (x &&& 0x7F).toNat ≤ 127 := Nat.and_le_right

theorem le_or_topByte_toNat (x : Byte) : 128 ≤ (x ||| 0x80).toNat := Nat.right_le_or

/-- Adding the low seven bits of two bytes, then their top bits without their carry, is adding the bytes. -/
theorem addByte_masked (x y : Byte) : ((x &&& 0x7F) + (y &&& 0x7F)) ^^^ ((x ^^^ y) &&& 0x80) = x + y := by
  calc ((x &&& 0x7F) + (y &&& 0x7F)) ^^^ ((x ^^^ y) &&& 0x80)
      = ((x &&& 0x7F) + (x &&& 0x80)) + ((y &&& 0x7F) + (y &&& 0x80)) := by
        rw [xor_topByte, topByte_xor, add_add_add_comm]
    _ = x + y := by rw [lowByte_add_topByte, lowByte_add_topByte]

/-- Subtracting low seven bits from a byte with its top bit set, then putting the top bits right, is subtracting the
bytes: the 128 that was set and the 128 of the complement cancel. -/
theorem subByte_masked (x y : Byte) : ((x ||| 0x80) - (y &&& 0x7F)) ^^^ ((x ^^^ ~~~y) &&& 0x80) = x - y := by
  have hcancel : (0x80 + 0x80 : Byte) = 0 := rfl
  calc ((x ||| 0x80) - (y &&& 0x7F)) ^^^ ((x ^^^ ~~~y) &&& 0x80)
      = ((x &&& 0x7F) + (x &&& 0x80)) - ((y &&& 0x7F) + (y &&& 0x80)) + (0x80 + 0x80) := by
        rw [xor_topByte, topByte_xor, topByte_not, or_topByte]
        abel
    _ = x - y := by rw [lowByte_add_topByte, lowByte_add_topByte, hcancel, add_zero]

theorem addRef_eq (a b : Word) : addRef a b = addWord a b := by
  refine word_ext_lanes fun i hi => ?_
  have hcarry : ∀ j < 8, (lane (a &&& lowBits) j).toNat + (lane (b &&& lowBits) j).toNat < 256 := fun j hj => by
    have ha := lowByte_toNat_le (lane a j)
    have hb := lowByte_toNat_le (lane b j)
    rw [lane_and, lane_and, lane_lowBits hj]
    omega
  rw [addRef, lane_xor, lane_add_of_noCarry hcarry hi, lane_and, lane_and, lane_and, lane_xor, lane_lowBits hi,
    lane_topBits hi, addByte_masked, lane_addWord a b hi]

theorem subRef_eq (a b : Word) : subRef a b = subWord a b := by
  refine word_ext_lanes fun i hi => ?_
  have hborrow : ∀ j < 8, (lane (b &&& lowBits) j).toNat ≤ (lane (a ||| topBits) j).toNat := fun j hj => by
    have ha := le_or_topByte_toNat (lane a j)
    have hb := lowByte_toNat_le (lane b j)
    rw [lane_and, lane_or, lane_lowBits hj, lane_topBits hj]
    omega
  rw [subRef, lane_xor, lane_sub_of_noBorrow hborrow hi, lane_or, lane_and, lane_and, lane_xor, lane_not b hi,
    lane_lowBits hi, lane_topBits hi, subByte_masked, lane_subWord a b hi]

/-- Settles O28: no lane of the sum of the low bits overflows, so the formula is that of each lane. -/
theorem addIsMaskedAdd : Obligations.AddIsMaskedAdd := fun s => by
  rw [addRef_eq]
  exact completesWith_of_isLanewise s rfl

/-- Settles O29: no lane of the difference borrows from the next, so the formula is that of each lane. -/
theorem subIsMaskedSub : Obligations.SubIsMaskedSub := fun s => by
  rw [subRef_eq]
  exact completesWith_of_isLanewise s rfl

/-! ### Saturation by compare -/

/-- A select between all ones and a lane is the mask or the lane. -/
theorem or_eq_sel {k : Word} (hk : validMask k = true) (x : Word) : x ||| k = selWord k (bytes8 0xFF) x := by
  refine word_ext_lanes fun i hi => ?_
  rw [lane_selWord hk _ _ hi, lane_or, lane_bytes8 _ hi]
  rcases (validMask_iff k).mp hk i hi with h | h
  · rw [h]
    exact BitVec.or_zero
  · rw [h]
    exact BitVec.or_allOnes

/-- A select between zero and a word clears the word where the mask is set. -/
theorem and_not_eq_sel (k x : Word) : x &&& ~~~k = selWord k 0 x := by
  simp [selWord]

/-- A sum of lanes wraps exactly when it comes out below the first of them, and is then all ones. -/
theorem addsRef_eq (a b : Word) : addsRef a b = addsWord a b := by
  refine word_ext_lanes fun i hi => BitVec.eq_of_toNat_eq ?_
  have hsum := lane_addWord_toNat a b hi
  have hones : (0xFF : Byte).toNat = 255 := rfl
  rw [addsRef, cmpltWord, or_eq_sel (validMask_compareWord _ _ _), lane_selWord_compareWord _ _ _ _ _ hi,
    lane_addsWord_toNat a b hi, lane_bytes8 _ hi]
  simp only [decide_eq_true_eq]
  split <;> omega

/-- A difference of lanes is negative exactly when the first is the smaller, and is then cleared. -/
theorem subsRef_eq (a b : Word) : subsRef a b = subsWord a b := by
  refine word_ext_lanes fun i hi => BitVec.eq_of_toNat_eq (Int.ofNat_inj.mp ?_)
  have hdiff := lane_subWord_toNat a b hi
  have hzero : (lane 0 i).toNat = 0 := by rw [lane_toNat]; simp
  rw [subsRef, cmpltWord, and_not_eq_sel, lane_selWord_compareWord _ _ _ _ _ hi, lane_subsWord_toNat a b hi]
  simp only [decide_eq_true_eq]
  split <;> omega

/-- Settles O30: the formulas are selects by a comparison that says where the sum wraps or the difference is negative. -/
theorem saturationByCompare : Obligations.SaturationByCompare := by
  refine ⟨fun s => ?_, fun k x hk => ⟨or_eq_sel hk x, and_not_eq_sel k x⟩⟩
  rw [addsRef_eq, subsRef_eq]
  exact ⟨completesWith_of_isLanewise s rfl, completesWith_of_isLanewise s rfl⟩

/-! ### Comparisons by flag bits -/

/-- The bits left when the top bits of a word are shifted down are the top bits of its lanes. -/
theorem lane_topBits_ushiftRight (x : Word) {i : Nat} (hi : i < 8) :
    lane ((x &&& topBits) >>> 7) i = BitVec.ofNat 8 (lane x i).msb.toNat := by
  have hdown : ∀ y : Byte, (y >>> 7) &&& 1 = BitVec.ofNat 8 y.msb.toNat := by decide
  have htop : topBits >>> 7 = bytes8 1 := rfl
  rw [BitVec.ushiftRight_and_distrib, htop, lane_ushiftRight_and x 7 (by decide) hi, hdown]

/-- The top bits of the lanes, shifted down and times 0xFF, are mask bytes. -/
theorem lane_spread_topBits (x : Word) {i : Nat} (hi : i < 8) :
    lane (((x &&& topBits) >>> 7) * 0xFF) i = maskByte (lane x i).msb :=
  lane_mul_of_flags (c := fun j => (lane x j).msb) (fun _ hj => lane_topBits_ushiftRight x hj) hi

/-- Adding 0x7F to the low bits of a lane carries into its top bit exactly when they are not 0, and no further. -/
theorem lane_nonzeroBits (x : Word) {i : Nat} (hi : i < 8) :
    lane (nonzeroBits x) i = ((lane x i &&& 0x7F) + 0x7F) ||| lane x i := by
  have hcarry : ∀ j < 8, (lane (x &&& lowBits) j).toNat + (lane lowBits j).toNat < 256 := fun j hj => by
    have hx := lowByte_toNat_le (lane x j)
    rw [lane_and, lane_lowBits hj]
    exact (Nat.add_le_add_right hx _).trans_lt (by decide)
  rw [nonzeroBits, lane_or, lane_add_of_noCarry hcarry hi, lane_and, lane_lowBits hi]

theorem cmpeqRef_eq (a b : Word) : cmpeqRef a b = cmpeqWord a b := by
  refine word_ext_lanes fun i hi => ?_
  have hzero : ∀ z : Byte, (~~~(((z &&& 0x7F) + 0x7F) ||| z)).msb = decide (z = 0#8) := by decide
  rw [cmpeqRef, lane_spread_topBits _ hi, lane_not _ hi, lane_nonzeroBits _ hi, hzero, lane_xor, cmpeqWord,
    lane_compareWord_bool _ a b hi]
  simp only [BitVec.xor_eq_zero_iff, BitVec.toNat_inj]

/-- The borrow formula of one byte, by the top bits: where they differ they decide, and where they agree the difference
is small, and its top bit is its sign. -/
theorem borrowByte_msb (x y : Byte) :
    ((~~~x &&& y) ||| ((~~~x ||| y) &&& (x - y))).msb = decide (x.toNat < y.toNat) := by
  have hsub : (x - y).toNat = (256 - y.toNat + x.toNat) % 256 := BitVec.toNat_sub x y
  have hnot : (~~~x).toNat = 255 - x.toNat := BitVec.toNat_not
  rw [BitVec.msb_or, BitVec.msb_and, BitVec.msb_and, BitVec.msb_or, BitVec.msb_eq_decide y, BitVec.msb_eq_decide (~~~x),
    BitVec.msb_eq_decide (x - y), Bool.eq_iff_iff]
  simp only [Bool.or_eq_true, Bool.and_eq_true, decide_eq_true_eq]
  omega

theorem cmpltRef_eq (a b : Word) : cmpltRef a b = cmpltWord a b := by
  refine word_ext_lanes fun i hi => ?_
  rw [cmpltRef, borrowBits, lane_spread_topBits _ hi, lane_or, lane_and, lane_and, lane_or, lane_not _ hi,
    lane_subWord _ _ hi, borrowByte_msb, cmpltWord, lane_compareWord_bool _ a b hi]

/-- Settles O34: in each lane the zero test and the borrow formula leave their answer in the top bit, which is spread to
a mask byte. -/
theorem compareReference : Obligations.CompareReference := fun s => by
  rw [cmpeqRef_eq, cmpltRef_eq]
  exact ⟨completesWith_of_isLanewise s rfl, completesWith_of_isLanewise s rfl⟩

/-! ### Shifts and population count -/

theorem shlRef_eq (n : Nat) (a : Word) : shlRef n a = shlWord n a := by
  refine word_ext_lanes fun i hi => ?_
  have hmask : BitVec.ofNat 8 ((0xFF * 2 ^ n) % 256) = BitVec.allOnes 8 <<< n := by
    apply BitVec.eq_of_toNat_eq
    rw [BitVec.toNat_ofNat, BitVec.toNat_shiftLeft, Nat.shiftLeft_eq, Nat.mod_mod]
    rfl
  rw [shlRef, hmask, lane_shiftLeft_and a n BitVec.and_self hi, ← BitVec.shiftLeft_and_distrib, BitVec.and_allOnes,
    lane_shlWord n a hi]

theorem shrRef_eq (n : Nat) (a : Word) : shrRef n a = shrWord n a := by
  refine word_ext_lanes fun i hi => ?_
  have hmask : BitVec.ofNat 8 (0xFF / 2 ^ n) = BitVec.allOnes 8 >>> n := by
    apply BitVec.eq_of_toNat_eq
    rw [BitVec.toNat_ofNat, BitVec.toNat_ushiftRight, Nat.shiftRight_eq_div_pow]
    exact Nat.mod_eq_of_lt ((Nat.div_le_self _ _).trans_lt (by decide))
  rw [shrRef, hmask, lane_ushiftRight_and a n BitVec.and_self hi, ← BitVec.ushiftRight_and_distrib,
    BitVec.and_allOnes, lane_shrWord n a hi]

/-- The first step of the count, on one byte: counts in bit pairs. -/
def pairCounts (x : Byte) : Byte := x - ((x >>> 1) &&& 0x55)

/-- The second step of the count, on one byte: counts in nibbles. -/
def nibbleCounts (x : Byte) : Byte := (x &&& (0x33 : Byte)) + ((x >>> 2) &&& 0x33)

theorem pcntPairs_eq (a : Word) : pcntPairs a = a - ((a >>> 1) &&& bytes8 0x55) := rfl

theorem pcntNibbles_eq (x : Word) : pcntNibbles x = (x &&& bytes8 0x33) + ((x >>> 2) &&& bytes8 0x33) := rfl

theorem pcntRef_eq_add (a : Word) : pcntRef a =
    (pcntNibbles (pcntPairs a) + (pcntNibbles (pcntPairs a) >>> 4)) &&& bytes8 0x0F := rfl

/-- A pair of bits is at least its upper bit, so no pair borrows. -/
theorem lane_pcntPairs (a : Word) {i : Nat} (hi : i < 8) : lane (pcntPairs a) i = pairCounts (lane a i) := by
  have hhigh {j : Nat} (hj : j < 8) : lane ((a >>> 1) &&& bytes8 0x55) j = (lane a j >>> 1) &&& 0x55 :=
    lane_ushiftRight_and a 1 (by decide) hj
  have hle : ∀ x : Byte, ((x >>> 1) &&& 0x55).toNat ≤ x.toNat := by decide
  have hborrow : ∀ j < 8, (lane ((a >>> 1) &&& bytes8 0x55) j).toNat ≤ (lane a j).toNat := fun j hj => by
    rw [hhigh hj]
    exact hle _
  rw [pcntPairs_eq, lane_sub_of_noBorrow hborrow hi, hhigh hi, pairCounts]

/-- Counts of at most 3 in each bit pair add up within a byte. -/
theorem lane_pcntNibbles (x : Word) {i : Nat} (hi : i < 8) : lane (pcntNibbles x) i = nibbleCounts (lane x i) := by
  have hlow {j : Nat} (hj : j < 8) : lane (x &&& bytes8 0x33) j = lane x j &&& 0x33 := by
    rw [lane_and, lane_bytes8 _ hj]
  have hhigh {j : Nat} (hj : j < 8) : lane ((x >>> 2) &&& bytes8 0x33) j = (lane x j >>> 2) &&& 0x33 :=
    lane_ushiftRight_and x 2 (by decide) hj
  have hle : ∀ y z : Byte, (y &&& 0x33).toNat + (z &&& 0x33).toNat < 256 := fun _ _ =>
    (Nat.add_le_add Nat.and_le_right Nat.and_le_right).trans_lt (by decide : 0x33 + 0x33 < 256)
  have hcarry : ∀ j < 8, (lane (x &&& bytes8 0x33) j).toNat +
      (lane ((x >>> 2) &&& bytes8 0x33) j).toNat < 256 := fun j hj => by
    rw [hlow hj, hhigh hj]
    exact hle _ _
  rw [pcntNibbles_eq, lane_add_of_noCarry hcarry hi, hlow hi, hhigh hi, nibbleCounts]

/-- The three steps on one byte count its one bits. -/
theorem nibbleCounts_pairCounts (x : Byte) :
    (nibbleCounts (pairCounts x) + (nibbleCounts (pairCounts x) >>> 4)) &&& 0x0F = BitVec.ofNat 8 (popcount x) := by
  revert x
  decide

/-- Counts in nibbles are at most 4, so bit 3 of each nibble is 0. -/
theorem nibbleCounts_pairCounts_and (x : Byte) :
    nibbleCounts (pairCounts x) &&& 0x77 = nibbleCounts (pairCounts x) := by
  revert x
  decide

/-- The low nibble of a sum is that of the sum of the low nibbles. -/
theorem add_and_lowNibble (x y : Byte) : (x + y) &&& 0x0F = (x + (y &&& 0x0F)) &&& 0x0F := by
  have hmod (z : Byte) : (z &&& 0x0F).toNat = z.toNat % 16 := Nat.and_two_pow_sub_one_eq_mod z.toNat 4
  apply BitVec.eq_of_toNat_eq
  rw [hmod, hmod, BitVec.toNat_add, BitVec.toNat_add, hmod]
  omega

/-- The lanes of a word that a mask leaves alone are at most the mask's byte. -/
theorem lane_toNat_le_of_and {x : Word} {c : Byte} (h : x &&& bytes8 c = x) {i : Nat} (hi : i < 8) :
    (lane x i).toNat ≤ c.toNat := by
  rw [← h, lane_and, lane_bytes8 _ hi]
  exact Nat.and_le_right

theorem pcntRef_eq (a : Word) : pcntRef a = pcntWord a := by
  refine word_ext_lanes fun i hi => ?_
  rw [pcntRef_eq_add]
  generalize hn : pcntNibbles (pcntPairs a) = n
  have hlane {j : Nat} (hj : j < 8) : lane n j = nibbleCounts (pairCounts (lane a j)) := by
    rw [← hn, lane_pcntNibbles _ hj, lane_pcntPairs _ hj]
  have hkept : n &&& bytes8 0x77 = n := word_ext_lanes fun j hj => by
    rw [lane_and, lane_bytes8 _ hj, hlane hj, nibbleCounts_pairCounts_and]
  have hkeptShifted : (n >>> 4) &&& bytes8 0x77 = n >>> 4 := by
    have hmask : (bytes8 0x77 >>> 4) &&& bytes8 0x77 = bytes8 0x77 >>> 4 := by decide
    rw [← hkept, BitVec.ushiftRight_and_distrib, BitVec.and_assoc, hmask]
  have hcarry : ∀ j < 8, (lane n j).toNat + (lane (n >>> 4) j).toNat < 256 := fun j hj =>
    (Nat.add_le_add (lane_toNat_le_of_and hkept hj) (lane_toNat_le_of_and hkeptShifted hj)).trans_lt
      (by decide : 0x77 + 0x77 < 256)
  have hlow : lane (n >>> 4) i &&& (0x0F : Byte) = (lane n i >>> 4) &&& 0x0F := by
    rw [← lane_ushiftRight_and n 4 (by decide) hi, lane_and, lane_bytes8 _ hi]
  rw [lane_and, lane_bytes8 _ hi, lane_add_of_noCarry hcarry hi, add_and_lowNibble, hlow, ← add_and_lowNibble,
    hlane hi, nibbleCounts_pairCounts, pcntWord, lane_lanewise _ hi]

/-- Settles O43: the masks keep every shifted bit and every count within its lane. -/
theorem shiftCountReference : Obligations.ShiftCountReference := by
  refine fun s => ⟨?_, fun n _ => ⟨?_, ?_⟩⟩
  · rw [pcntRef_eq]
    exact completesWith_of_isLanewise s rfl
  · rw [shlRef_eq]
    exact completesWith_of_isLanewise s rfl
  · rw [shrRef_eq]
    exact completesWith_of_isLanewise s rfl

end Sys2Proof.Machine
end

section
/-! Horizontal reductions against the whole-word formulas (spec/46_reductions.md R93), and the bit count of a whole word
(92_eei_decisions.md D18). -/

namespace Sys2Proof.Machine

open Reference

/-! ### Lanes moved down and lanes kept -/

/-- Shifted right by whole lanes, a word has the lanes of higher index in their place. -/
theorem lane_ushiftRight_lanes (a : Word) (k i : Nat) : lane (a >>> (8 * k)) i = lane a (i + k) := by
  refine BitVec.eq_of_getLsbD_eq fun j _ => ?_
  rw [lane_getLsbD, lane_getLsbD, BitVec.getLsbD_ushiftRight]
  congr 2
  omega

/-- A word with some lanes kept and the others cleared. -/
theorem lane_and_keep (x : Word) (p : Nat → Bool) {i : Nat} (hi : i < 8) :
    lane (x &&& lanewise fun i => maskByte (p i)) i = if p i then lane x i else 0 := by
  rw [lane_and, lane_lanewise _ hi]
  cases p i
  · exact BitVec.and_zero
  · exact BitVec.and_allOnes

/-! ### HSUM by pairwise sums -/

theorem hsumPairs_eq (a : Word) : hsumPairs a =
    (a &&& lanewise fun i => maskByte (i % 2 == 0)) + ((a >>> (8 * 1)) &&& lanewise fun i => maskByte (i % 2 == 0)) :=
  rfl

theorem hsumQuads_eq (x : Word) : hsumQuads x =
    (x &&& lanewise fun i => maskByte (i % 4 < 2)) + ((x >>> (8 * 2)) &&& lanewise fun i => maskByte (i % 4 < 2)) :=
  rfl

theorem hsumRef_eq_add (a : Word) : hsumRef a =
    (hsumQuads (hsumPairs a) &&& lanewise fun i => maskByte (i < 4)) + (hsumQuads (hsumPairs a) >>> (8 * 4)) :=
  rfl

/-- The sums of lane pairs, each in its 16 bits. -/
theorem hsumPairs_toNat (a : Word) : (hsumPairs a).toNat =
    ((lane a 0).toNat + (lane a 1).toNat) + 2 ^ 16 * ((lane a 2).toNat + (lane a 3).toNat) +
    2 ^ 32 * ((lane a 4).toNat + (lane a 5).toNat) + 2 ^ 48 * ((lane a 6).toNat + (lane a 7).toNat) := by
  rw [hsumPairs_eq, BitVec.toNat_add, word_toNat (a &&& _), word_toNat (_ >>> _ &&& _)]
  simp only [lane_and_keep, lane_ushiftRight_lanes, Nat.reduceLT, Nat.reduceMod, Nat.reduceBEq, Nat.reduceAdd,
    if_true, if_false, reduceCtorEq, BitVec.ofNat_eq_ofNat, BitVec.toNat_ofNat]
  omega

/-- The four 16-bit fields of a word added in pairs, each sum in its 32 bits. -/
theorem hsumQuads_toNat {x : Word} {f0 f1 f2 f3 : Nat} (hx : x.toNat = f0 + 2 ^ 16 * f1 + 2 ^ 32 * f2 + 2 ^ 48 * f3)
    (h0 : f0 < 2 ^ 16) (h1 : f1 < 2 ^ 16) (h2 : f2 < 2 ^ 16) (h3 : f3 < 2 ^ 16) :
    (hsumQuads x).toNat = (f0 + f1) + 2 ^ 32 * (f2 + f3) := by
  rw [word_toNat x] at hx
  have hf0 : (lane x 0).toNat + 256 * (lane x 1).toNat = f0 := by omega
  have hf1 : (lane x 2).toNat + 256 * (lane x 3).toNat = f1 := by omega
  have hf2 : (lane x 4).toNat + 256 * (lane x 5).toNat = f2 := by omega
  have hf3 : (lane x 6).toNat + 256 * (lane x 7).toNat = f3 := by omega
  rw [hsumQuads_eq, BitVec.toNat_add, word_toNat (x &&& _), word_toNat (_ >>> _ &&& _)]
  simp only [lane_and_keep, lane_ushiftRight_lanes, Nat.reduceLT, Nat.reduceMod, Nat.reduceAdd, decide_true,
    decide_false, if_true, if_false, reduceCtorEq, BitVec.ofNat_eq_ofNat, BitVec.toNat_ofNat]
  omega

/-- The two 32-bit halves of a word added. -/
theorem addHalves_toNat {q : Word} {f0 f1 : Nat} (hq : q.toNat = f0 + 2 ^ 32 * f1) (hsum : f0 + f1 < 2 ^ 32) :
    ((q &&& lanewise fun i => maskByte (i < 4)) + (q >>> (8 * 4))).toNat = f0 + f1 := by
  have hhigh : (q >>> (8 * 4)).toNat = f1 := by
    rw [BitVec.toNat_ushiftRight, Nat.shiftRight_eq_div_pow, hq]
    omega
  rw [word_toNat q] at hq
  have hlow : (lane q 0).toNat + 256 * (lane q 1).toNat + 65536 * (lane q 2).toNat + 16777216 * (lane q 3).toNat = f0 :=
    by omega
  rw [BitVec.toNat_add, hhigh, word_toNat (q &&& _)]
  simp only [lane_and_keep, Nat.reduceLT, decide_true, decide_false, if_true, if_false, reduceCtorEq,
    BitVec.ofNat_eq_ofNat, BitVec.toNat_ofNat]
  omega

theorem hsumRef_eq (a : Word) : hsumRef a = hsumWord a := by
  have hquads := hsumQuads_toNat (hsumPairs_toNat a) (by omega) (by omega) (by omega) (by omega)
  apply BitVec.eq_of_toNat_eq
  rw [hsumRef_eq_add, addHalves_toNat hquads (by omega), hsumWord_toNat, laneValues_sum]
  omega

/-! ### HMIN and HMAX by trees -/

theorem lane_minFold_toNat {n : Nat} (k : Nat) (hn : n = 8 * k) (a : Word) {i : Nat} (hi : i < 8) :
    (lane (minFold n a) i).toNat = min (lane a i).toNat (lane a (i + k)).toNat := by
  rw [minFold, hn, lane_minWord_toNat _ _ hi, lane_ushiftRight_lanes]

theorem lane_maxFold_toNat {n : Nat} (k : Nat) (hn : n = 8 * k) (a : Word) {i : Nat} (hi : i < 8) :
    (lane (maxFold n a) i).toNat = max (lane a i).toNat (lane a (i + k)).toNat := by
  rw [maxFold, hn, lane_maxWord_toNat _ _ hi, lane_ushiftRight_lanes]

/-- Folding an operation over the lanes from lane 0 is the tree of halves, quarters and eighths: the operation is
associative and commutative, and lane 0 counts once. -/
theorem foldl_laneValues_eq_tree (f : Nat → Nat → Nat) [Std.Associative f] [Std.Commutative f] [Std.IdempotentOp f]
    (a : Word) : (laneValues a).foldl f (lane a 0).toNat =
      f (f (f (lane a 0).toNat (lane a 4).toNat) (f (lane a 2).toNat (lane a 6).toNat))
        (f (f (lane a 1).toNat (lane a 5).toNat) (f (lane a 3).toNat (lane a 7).toNat)) := by
  simp only [laneValues, List.foldl_map, List.range_succ, List.range_zero, List.foldl_append, List.foldl_cons,
    List.foldl_nil, List.nil_append]
  ac_rfl

theorem hminRef_eq (a : Word) : hminRef a = hminWord a := by
  rw [hminRef, extrWord, hminWord, ← BitVec.ofNat_toNat, foldl_laneValues_eq_tree]
  simp only [lane_minFold_toNat 1 rfl, lane_minFold_toNat 2 rfl, lane_minFold_toNat 4 rfl, Nat.reduceAdd, Nat.reduceLT]

theorem hmaxRef_eq (a : Word) : hmaxRef a = hmaxWord a := by
  rw [hmaxRef, extrWord, hmaxWord, ← BitVec.ofNat_toNat, foldl_laneValues_eq_tree]
  simp only [lane_maxFold_toNat 1 rfl, lane_maxFold_toNat 2 rfl, lane_maxFold_toNat 4 rfl, Nat.reduceAdd, Nat.reduceLT]

/-- Settles O48: the pairwise sums fit their fields, and a fold over the lanes is the tree. -/
theorem reductionReference : Obligations.ReductionReference := fun s => by
  rw [hsumRef_eq, hminRef_eq, hmaxRef_eq]
  exact ⟨completesWith_hsum s, completesWith_hmin s, completesWith_hmax s⟩

/-! ### The bit count of a word -/

/-- A sum over the first 8n numbers, taken eight at a time. -/
theorem sum_range_eight_mul (f : Nat → Nat) (n : Nat) :
    ((List.range (8 * n)).map f).sum =
      ((List.range n).map fun i => ((List.range 8).map fun j => f (8 * i + j)).sum).sum := by
  induction n with
  | zero => rfl
  | succ n ih =>
    rw [Nat.mul_succ, List.range_add, List.map_append, List.sum_append, ih, List.range_succ (n := n), List.map_append,
      List.sum_append, List.map_map]
    simp [Function.comp_def]

/-- HSUM of PCNT adds up the counts of the lanes. -/
theorem hsumWord_pcntWord_toNat (a : Word) :
    (hsumWord (pcntWord a)).toNat = ((List.range 64).map fun j => (a.getLsbD j).toNat).sum := by
  rw [hsumWord_toNat, laneValues, sum_range_eight_mul _ 8]
  refine congrArg List.sum (List.map_congr_left fun i hi => ?_)
  rw [lane_pcntWord_toNat a (List.mem_range.mp hi), popcount_lane]

/-- Settles O44: PCNT completes with the counts of the lanes, and HSUM of them is the count over all 64 bits. -/
theorem wordCountIsSumOfPcnt : Obligations.WordCountIsSumOfPcnt := fun s =>
  ⟨pcntWord s.ports.opa, hsumWord (pcntWord s.ports.opa), completesWith_of_isLanewise s rfl, completesWith_hsum _,
    hsumWord_pcntWord_toNat _⟩

end Sys2Proof.Machine
end

section
/-! A unit with no exception to report (spec/10_state.md R20; 60_exceptions.md R97, R101). -/

namespace Sys2Proof.Machine

theorem clean_iff (s : State) : s.clean = true ↔ s.readStatus = 0 ∧ ∀ p ∈ s.inFlight, p.rsp.exc = .none := by
  simp [State.clean]

/-- A legal command whose mask, if it reads one, is valid raises nothing. -/
theorem transact_exc_none {cmd : CmdWord} {i : Instr} {m : Word} (hd : decode cmd = .ok i)
    (hm : readsM i = true → validMask m = true) (st : Byte) (a b inv : Word) :
    (Reference.transact st cmd a b m inv).rsp.exc = .none := by
  have hcheck : (readsM i && !validMask m) = false := by
    cases hr : readsM i
    · rfl
    · rw [hm hr]
      rfl
  simp [Reference.transact, hd, hcheck]

/-- Such a command leaves a clear STATUS clear, CLRSTAT or not. -/
theorem transact_status_zero {cmd : CmdWord} {i : Instr} {m : Word} (hd : decode cmd = .ok i)
    (hm : readsM i = true → validMask m = true) (a b inv : Word) :
    (Reference.transact 0 cmd a b m inv).status = 0 := by
  have hcheck : ¬ (readsM i = true ∧ validMask m = false) := fun ⟨hr, hinv⟩ => by
    rw [hm hr] at hinv
    cases hinv
  rw [transact_status_of_ok hd, if_neg hcheck]
  exact ite_self 0

/-- A response still in flight after an edge was in flight before it. -/
theorem rsp_of_mem_still {l : List InFlight} {p : InFlight} (hp : p ∈ stillInFlight l) : ∃ q ∈ l, q.rsp = p.rsp := by
  rcases due_cases l with ⟨o, rest, rfl, -, -, hs⟩ | ⟨-, -, hs⟩
  · obtain ⟨q, hq, rfl⟩ := List.mem_map.mp (hs ▸ hp)
    exact ⟨q, List.mem_cons_of_mem o hq, rfl⟩
  · obtain ⟨q, hq, rfl⟩ := List.mem_map.mp (hs ▸ hp)
    exact ⟨q, hq, rfl⟩

/-- The response due at an edge was in flight before it. -/
theorem rsp_of_due {l : List InFlight} {r : Response} (hr : dueResponse l = some r) : ∃ q ∈ l, q.rsp = r := by
  rcases due_cases l with ⟨o, rest, rfl, -, hd, -⟩ | ⟨-, hd, -⟩
  · exact ⟨o, List.mem_cons_self, Option.some.inj (hd.symm.trans hr)⟩
  · cases hd.symm.trans hr

/-- Settles O55: nothing in flight at the edge has an exception, the new response included, and STATUS stays clear. -/
theorem cleanCommandStaysClean : Obligations.CleanCommandStaysClean := by
  intro s i hclean hdone hrst hacc hd hm
  obtain ⟨hst, hflight⟩ := (clean_iff s).mp hclean
  obtain ⟨t, ht, he⟩ := step_edgeEffect hdone hrst
  have hnone : ∀ p ∈ s.inFlight ++ s.answers, p.rsp.exc = .none := fun p hp => by
    rcases List.mem_append.mp hp with hp | hp
    · exact hflight p hp
    · rw [State.answers, taken_of_accepts hacc, List.map_singleton, List.mem_singleton] at hp
      rw [hp]
      exact transact_exc_none hd hm _ _ _ _
  refine ⟨t, ht, (clean_iff t).mpr ⟨?_, fun p hp => ?_⟩, fun hv => ?_⟩
  · rw [he.readStatus, taken_of_accepts hacc, hst]
    exact transact_status_zero hd hm _ _ _
  · obtain ⟨q, hq, hqp⟩ := rsp_of_mem_still (he.inFlight ▸ hp)
    exact hqp ▸ hnone q hq
  · obtain ⟨r, hr, hexc⟩ := he.exists_rspExc hv
    obtain ⟨q, hq, rfl⟩ := rsp_of_due hr
    rw [hexc, hnone q hq]
    rfl

end Sys2Proof.Machine
end
